-- ==== Sys2Proof/Word.lean ====
section
/-! DEFINITION. The machine's words: 32-bit registers and bytes (spec/00_scope.md R7, R8). -/

namespace Sys2Proof

/-- A register value (R7: "register width 32 bits"). -/
abbrev Word := BitVec 32

/-- A byte of a file, of the accumulator or of the destination memory. -/
abbrev Byte := BitVec 8

end Sys2Proof
end

