-- ==== Sys2Proof/Config.lean ====
section
/-! DEFINITION. What an implementation of VTFDEC fixes, and the values the spec leaves free
(spec/00_scope.md R7, spec/10_state.md R54, spec/93_implementation_defined.md U13, U23). -/

namespace Sys2Proof.Config

/-- R7 `ACC_INIT_CAPACITY`: "start capacity: 1,000,000 bytes". -/
def accInitCapacity : Nat := 1000000

/-- How far ACC_MAX_CAPACITY lies above ACC_INIT_CAPACITY. R7 marks ACC_MAX_CAPACITY OPEN, "an integer
in [1,000,000, 4,294,967,295]": nothing is known of this number but its range (log entry 5). -/
opaque accHeadroom : Fin 4293967296

/-- R7 `ACC_MAX_CAPACITY`, OPEN. -/
def accMaxCapacity : Nat := accInitCapacity + accHeadroom.val

/-- The byte that the HOST's memory holds at an address no write of the run has touched
(U23: "any value from VTFDEC's view"). Free; VTFDEC itself never reads it (log entry 4). -/
opaque destInit : BitVec 64 → Byte

end Sys2Proof.Config
end

