-- ==== Sys2Proof/Syntax.lean ====
section
/-! DEFINITION. The instructions of VTFDEC (one constructor for each row of spec/opcode_table.json), the register
transaction that carries them, the names of the registers, and what a decoded write can be. -/

namespace Sys2Proof

/-- One constructor per row of spec/opcode_table.json, in the table's order. Every instruction is one 32-bit
register write (spec/30_encoding.md R100). `level` is a number (R103, "an unsigned level 0..255"), checked in
`Instr.wellFormed`; `ignored` keeps the bits of a STREAMn write that R105 ignores. -/
inductive Instr where
  | nop
  | loadBegin
  | loadEnd
  | abort
  | vacMipsize (level : Nat) (dsel : Bool)
  | vacOffset
  | pixRgba8888
  | pixAbgr8888
  | pixRgb888
  | pixBgr888
  | pixRgb565
  | pixI8
  | pixIa88
  | pixA8
  | pixArgb8888
  | pixBgra8888
  | blkDxt1
  | blkDxt5
  | stream1 (bytes : BitVec 8) (ignored : BitVec 24)
  | stream2 (bytes : BitVec 16) (ignored : BitVec 16)
  | stream3 (bytes : BitVec 24) (ignored : BitVec 8)
  | stream4 (bytes : BitVec 32)
  | rspAckAlloc
  | rspFailAlloc
  | rspAckNotify
  | rspAckAppend
  deriving DecidableEq, Repr

/-- A register write as the port carries it: the byte offset in the 4096-byte register space and the 32-bit value
(spec/20_memory.md R70, R71). -/
structure Txn where
  offset : BitVec 12
  data : Word
  deriving DecidableEq, Repr

/-- The types of sink request, as REQ_TYPE reads them (spec/10_state.md R47). -/
inductive ReqType where
  | none
  | alloc
  | notify
  | append
  deriving DecidableEq, Repr

/-- Access classes of registers (spec/10_state.md R20). -/
inductive Access where
  | ro
  | rw
  | wo
  | w1c
  deriving DecidableEq, Repr

/-- The registers of spec/10_state.md, by name. -/
inductive Reg where
  | id | cmd | status | cmderr | errcode | errtag | ie | edgeCfg | seqHandle | seqParams
  | accSize | accCap
  | stream1 | stream2 | stream3 | stream4
  | hdrSig | hdrVerMajor | hdrVerMinor | hdrHeadersize | hdrWidth | hdrHeight | hdrFlags | hdrFrames
  | hdrFirstframe | hdrRefl0 | hdrRefl1 | hdrRefl2 | hdrBumpscale | hdrFormat | hdrMipcount
  | hdrLrFormat | hdrLrWidth | hdrLrHeight | hdrDepthRaw | hdrDepth
  | payStart | payTotal | frameIdx
  | vacFrame | vacFace | vacSlice | vacMip | vacResLo | vacResHi
  | blkIn (k : Fin 4)
  | blkOut (k : Fin 16)
  | pixIn | pixOut
  | reqType | reqWidth | reqHeight | reqFlags | reqFrame | reqSeq | reqBaseLo | reqBaseHi
  | rspBaseLo | rspBaseHi | rspStride | rspSizeLo | rspSizeHi | rspCtrl
  | fbBaseLo | fbBaseHi | fbStride | fbSizeLo | fbSizeHi | fbNch
  deriving DecidableEq, Repr

/-- The eight opcodes of spec/30_encoding.md R102. -/
inductive Opcode where
  | nop
  | loadBegin
  | loadEnd
  | abort
  | vacMipsize
  | vacOffset
  | pixDecode
  | blkDecode
  deriving DecidableEq, Repr

/-- Writes to CMD and RSP_CTRL that no row of the opcode table covers, by name. Each but the last has the effect the
spec gives it, a command error (`Machine.refuseWrite`). -/
inductive Reject where
  /-- A CMD word that matches no row of R102 (spec/30_encoding.md R104). -/
  | illegalCommand
  /-- PIX_DECODE with a block tag (spec/43_pixel_formats.md R243). -/
  | pixBlockTag
  /-- PIX_DECODE with an unsupported tag (R243). -/
  | pixUnsupportedTag
  /-- BLK_DECODE with a per-pixel tag (spec/44_block_decompressor.md R281). -/
  | blkPixelTag
  /-- BLK_DECODE with an unsupported tag (R281). -/
  | blkUnsupportedTag
  /-- An RSP_CTRL value other than 1 or 2 (spec/30_encoding.md R106). -/
  | badResponse
  /-- An offset that is no multiple of 4: the port cannot carry it (spec/20_memory.md R71). -/
  | misaligned
  deriving DecidableEq, Repr

/-- What a register write is (spec/30_encoding.md R100): an instruction of the table, a rejected word, a plain store
to a register, or a write to an offset no register has (spec/10_state.md R52). -/
inductive Decoded where
  | run (i : Instr)
  | refuse (r : Reject)
  | store (r : Reg) (v : Word)
  | unmapped
  deriving DecidableEq, Repr

end Sys2Proof
end

