-- ==== Sys2Proof/Machine/State.lean ====
section
/-! DEFINITION. The state of VTFDEC (spec/10_state.md), its faults and refusals, and the state after reset
(spec/70_reset_and_hazards.md R391). -/

namespace Sys2Proof.Machine

/-- The phases of a load, with STATUS.PHASE's encodings 0 to 9 in this order; 10 to 15 are "never taken"
(spec/10_state.md R24). -/
inductive Phase where
  | idle
  | accum
  | parse
  | frameStart
  | allocWait
  | decode
  | notifyWait
  | appendWait
  | done
  | failed
  deriving DecidableEq, Repr

/-- A memory: the bytes that have been written, by address, addresses strictly rising. An address that is not listed
holds no value known to the model. -/
abbrev Memory := List Host.Cell

/-- The header latch, HDR_SIG to HDR_DEPTH_RAW (spec/10_state.md R37), each field as wide as its register. -/
structure Hdr where
  sig : Word
  verMajor : Word
  verMinor : Word
  headersize : Word
  width : BitVec 16
  height : BitVec 16
  flags : Word
  frames : BitVec 16
  firstframe : BitVec 16
  refl0 : Word
  refl1 : Word
  refl2 : Word
  bumpscale : Word
  format : Word
  mipcount : BitVec 8
  lrFormat : Word
  lrWidth : BitVec 8
  lrHeight : BitVec 8
  depthRaw : BitVec 16
  deriving DecidableEq, Repr

/-- The VAC operands VAC_FRAME, VAC_FACE, VAC_SLICE, VAC_MIP (spec/10_state.md R42) and the result
VAC_RES_HI, VAC_RES_LO as one value (R43). -/
structure Vac where
  frame : Word
  face : Word
  slice : Word
  mip : Word
  res : BitVec 64
  deriving DecidableEq, Repr

/-- The request registers REQ_WIDTH to REQ_BASE_HI (spec/10_state.md R47); REQ_TYPE follows PHASE. -/
structure Req where
  width : BitVec 16
  height : BitVec 16
  hasAlpha : Bool
  frame : BitVec 16
  seq : Word
  base : BitVec 64
  deriving DecidableEq, Repr

/-- The response registers RSP_BASE, RSP_STRIDE, RSP_SIZE (spec/10_state.md R48). -/
structure Rsp where
  base : BitVec 64
  stride : Word
  size : BitVec 64
  deriving DecidableEq, Repr

/-- The frame-buffer latch FB_BASE, FB_STRIDE, FB_SIZE, FB_NCH (spec/10_state.md R50). -/
structure Fb where
  base : BitVec 64
  stride : Word
  size : BitVec 64
  nch : BitVec 3
  deriving DecidableEq, Repr

/-- What comes to VTFDEC from outside, and when the engine has its turn (spec/00_scope.md R5, R6). -/
inductive Input where
  /-- The host writes a register. -/
  | write (t : Txn)
  /-- The host reads the register at a byte offset. -/
  | read (offset : BitVec 12)
  /-- The host polls STATUS until the bits under the mask equal the value (WAIT of spec/30_encoding.md R107). -/
  | waitStatus (mask value : Word)
  /-- The engine takes a step here, if one is enabled. -/
  | engineTurn
  /-- The reset input `rst` (spec/70_reset_and_hazards.md R390). -/
  | rst
  /-- The host writes a byte of its own memory (spec/70_reset_and_hazards.md R395). -/
  | memWrite (addr : BitVec 64) (b : Byte)
  /-- The host reads a byte of its own memory. -/
  | memRead (addr : BitVec 64)
  deriving DecidableEq, Repr

/-- The whole machine. Registers that are functions of others (STATUS.BUSY, DONE, ERR, REQ, REQ_TYPE, HDR_DEPTH,
`irq`) are not held a second time. `inputs` and `readData` are the model's own. -/
structure State where
  /-- STATUS.PHASE (R24). -/
  phase : Phase
  /-- STATUS.CERR (R25). -/
  cerr : Bool
  /-- STATUS.VOVF (R26). -/
  vovf : Bool
  /-- CMDERR.CODE (R25). -/
  cmdErr : BitVec 4
  /-- ERRCODE.CODE (R27). -/
  errCode : BitVec 4
  /-- ERRCODE.INFO (R27). -/
  errInfo : BitVec 8
  /-- ERRTAG (R28). -/
  errTag : Word
  /-- IE: DONE_IE, ERR_IE, REQ_IE, CERR_IE from bit 0 up (R29). -/
  ie : BitVec 4
  /-- EDGE_CFG: EDGE in bit 0, DXT_ROUND in bit 1 (R30). -/
  edgeCfg : BitVec 2
  /-- SEQ_HANDLE (R31). -/
  seqHandle : Word
  /-- ACC_SIZE (R33). -/
  accSize : Word
  /-- ACC_CAP (R34). -/
  accCap : Word
  /-- ACC_MEM (R35), by offset. -/
  accMem : Memory
  /-- The header latch (R37). -/
  hdr : Hdr
  /-- PAY_START (R40). -/
  payStart : Word
  /-- PAY_TOTAL (R40). -/
  payTotal : Word
  /-- FRAME_IDX (R41). -/
  frameIdx : Word
  /-- The VAC registers (R42, R43). -/
  vac : Vac
  /-- BLK_IN0 to BLK_IN3 (R44). -/
  blkIn : Vector Word 4
  /-- BLK_OUT0 to BLK_OUT15 (R45). -/
  blkOut : Vector Word 16
  /-- PIX_IN (R46). -/
  pixIn : Word
  /-- PIX_OUT (R46). -/
  pixOut : Word
  /-- The request registers (R47). -/
  req : Req
  /-- The response registers (R48). -/
  rsp : Rsp
  /-- The frame-buffer latch (R50). -/
  fb : Fb
  /-- The host's destination memory, by 64-bit address (spec/20_memory.md R70). -/
  dest : Memory
  /-- What is still to come from outside. The model's own. -/
  inputs : List Input
  /-- What the host's last read returned. The model's own. -/
  readData : Word
  deriving DecidableEq, Repr

/-- Why a step stops with a fault. None of these is an error of VTFDEC: its load errors and command errors are next
states. -/
inductive Fault where
  /-- Raised by `step` when no input is left (or the host polls STATUS for a value it does not have) and no engine
  step is enabled: "stuck: no step is enabled until the host acts" (spec/93_implementation_defined.md U20). Safe. -/
  | stuckOnHost
  /-- Raised by an engine step that would read ACC_MEM at or above ACC_SIZE or a byte never pushed: "unreachable. It
  is never a value" (spec/20_memory.md R73). Safe. -/
  | accReadOutOfRange
  /-- Raised by a DECODE step that would write above the 64-bit destination address space (spec/20_memory.md R70).
  Unreachable, since an accepted buffer ends at or below 2^64 (spec/45_frame_dispatcher.md R314). Safe. -/
  | destOutsideSpace
  /-- Raised by STREAMn where the doubling loop of spec/40_accumulator.md R153 would not end: a capacity of 0 in
  ACCUM. Unreachable (R155). Safe. -/
  | growthDiverges
  deriving DecidableEq, Repr

/-- Why a step is refused. -/
inductive Refusal where
  /-- Raised by `exec` for an instruction that has no meaning yet. Safe. -/
  | notModelled (mnemonic : String)
  /-- Raised by `step` for a register access at an offset that is no multiple of 4, which "cannot be expressed" on the
  port (spec/20_memory.md R71). Safe. -/
  | misalignedPortAccess
  deriving DecidableEq, Repr

/-- The header latch after reset: all 0 (R391). -/
def Hdr.reset : Hdr where
  sig := 0
  verMajor := 0
  verMinor := 0
  headersize := 0
  width := 0
  height := 0
  flags := 0
  frames := 0
  firstframe := 0
  refl0 := 0
  refl1 := 0
  refl2 := 0
  bumpscale := 0
  format := 0
  mipcount := 0
  lrFormat := 0
  lrWidth := 0
  lrHeight := 0
  depthRaw := 0

/-- The machine right after reset (R391, R392). `inputs` is empty: VTFDEC "waits for the host's first register
write". No byte of the destination memory has been written yet. -/
def State.reset : State where
  phase := .idle
  cerr := false
  vovf := false
  cmdErr := 0
  errCode := 0
  errInfo := 0
  errTag := 0
  ie := 0
  edgeCfg := 0
  seqHandle := 0
  accSize := 0
  accCap := 0
  accMem := []
  hdr := Hdr.reset
  payStart := 0
  payTotal := 0
  frameIdx := 0
  vac := ⟨0, 0, 0, 0, 0⟩
  blkIn := Vector.replicate 4 0
  blkOut := Vector.replicate 16 0
  pixIn := 0
  pixOut := 0
  req := ⟨0, 0, false, 0, 0, 0⟩
  rsp := ⟨0, 0, 0⟩
  fb := ⟨0, 0, 0, 0⟩
  dest := []
  inputs := []
  readData := 0

end Sys2Proof.Machine
end

