-- ==== Sys2Proof/Machine/Flags.lean ====
section
/-! DEFINITION. STATUS and its flags (spec/10_state.md R24), the error codes (spec/60_exceptions.md R351, R353, R356)
and the interrupt (R361). -/

namespace Sys2Proof.Machine

/-- The encoding of PHASE (R24). -/
def Phase.code : Phase → BitVec 4
  | .idle => 0
  | .accum => 1
  | .parse => 2
  | .frameStart => 3
  | .allocWait => 4
  | .decode => 5
  | .notifyWait => 6
  | .appendWait => 7
  | .done => 8
  | .failed => 9

/-- STATUS.BUSY: "1 iff PHASE is one of 2..7". -/
def Phase.busy : Phase → Bool
  | .parse | .frameStart | .allocWait | .decode | .notifyWait | .appendWait => true
  | .idle | .accum | .done | .failed => false

/-- REQ_TYPE: the type that matches PHASE (spec/10_state.md R47). -/
def Phase.reqType : Phase → ReqType
  | .allocWait => .alloc
  | .notifyWait => .notify
  | .appendWait => .append
  | .idle | .accum | .parse | .frameStart | .decode | .done | .failed => .none

/-- An engine step is enabled in this phase (R24). -/
def Phase.engineEnabled : Phase → Bool
  | .parse | .frameStart | .decode => true
  | .idle | .accum | .allocWait | .notifyWait | .appendWait | .done | .failed => false

/-- The value REQ_TYPE reads (spec/10_state.md R47). -/
def reqTypeCode : ReqType → BitVec 2
  | .none => 0
  | .alloc => 1
  | .notify => 2
  | .append => 3

/-- STATUS.BUSY. -/
def State.busy (s : State) : Bool := s.phase.busy

/-- STATUS.DONE. -/
def State.doneFlag (s : State) : Bool := s.phase == .done

/-- STATUS.ERR. -/
def State.errFlag (s : State) : Bool := s.phase == .failed

/-- STATUS.REQ: a sink request is pending. -/
def State.reqFlag (s : State) : Bool := s.phase.reqType != .none

/-- STATUS as the host reads it (R24). -/
def statusWord (s : State) : Word :=
  0#20 ++ s.phase.code ++ 0#2 ++ BitVec.ofBool s.vovf ++ BitVec.ofBool s.cerr ++ BitVec.ofBool s.reqFlag
    ++ BitVec.ofBool s.errFlag ++ BitVec.ofBool s.doneFlag ++ BitVec.ofBool s.busy

/-- The output `irq` (spec/60_exceptions.md R361). -/
def State.irq (s : State) : Bool :=
  (s.doneFlag && s.ie.getLsbD 0) || (s.errFlag && s.ie.getLsbD 1) || (s.reqFlag && s.ie.getLsbD 2)
    || (s.cerr && s.ie.getLsbD 3)

/-- The causes of a load error (spec/60_exceptions.md R353). -/
inductive LoadError where
  | accGrowth
  | allocRefused
  | shortHeader
  | badSignature
  | zeroFrames
  | payloadUnderrun
  | frameRange
  | unsupportedFormat
  | destBounds
  | strideShort
  | sizeShort
  | addrWrap
  deriving DecidableEq, Repr

/-- ERRCODE.CODE (R351). -/
def LoadError.code : LoadError → BitVec 4
  | .accGrowth | .allocRefused => 1
  | .shortHeader | .badSignature | .zeroFrames | .payloadUnderrun | .frameRange => 2
  | .unsupportedFormat => 3
  | .destBounds => 4
  | .strideShort | .sizeShort | .addrWrap => 5

/-- ERRCODE.INFO (R353). -/
def LoadError.info : LoadError → BitVec 8
  | .accGrowth => 1
  | .allocRefused => 2
  | .shortHeader => 1
  | .badSignature => 2
  | .zeroFrames => 3
  | .payloadUnderrun => 4
  | .frameRange => 5
  | .unsupportedFormat => 0
  | .destBounds => 0
  | .strideShort => 1
  | .sizeShort => 2
  | .addrWrap => 3

/-- The command errors (spec/60_exceptions.md R356). -/
inductive CmdError where
  | illegalOpcode
  | wrongPhase
  | busy
  | badOperand
  | unsupportedFormat
  | noRequest
  deriving DecidableEq, Repr

/-- CMDERR.CODE (R356). -/
def CmdError.code : CmdError → BitVec 4
  | .illegalOpcode => 1
  | .wrongPhase => 2
  | .busy => 3
  | .badOperand => 4
  | .unsupportedFormat => 5
  | .noRequest => 6

end Sys2Proof.Machine
end

