-- ==== Sys2Proof/Machine/Operands.lean ====
section
/-! DEFINITION. Operand forms: little-endian fields of a byte list (spec/00_scope.md R10, R11), the bytes of register
values (spec/20_memory.md R76), the 64-bit registers by halves, and the operands of the commands
(spec/30_encoding.md R103, R105). -/

namespace Sys2Proof.Machine

/-- Byte `i` of a register value, bits [8i+7:8i] (R76). -/
def byteOf (w : Word) (i : Nat) : Byte := w.extractLsb' (8 * i) 8

/-- The four bytes of a register value in file order (R76). -/
def wordBytes (w : Word) : List Byte := [byteOf w 0, byteOf w 1, byteOf w 2, byteOf w 3]

/-- `le16(bs, i)` of R10. -/
def le16 (bs : List Byte) (i : Nat) : BitVec 16 := bs.getD (i + 1) 0 ++ bs.getD i 0

/-- `le32(bs, i)` of R10. -/
def le32 (bs : List Byte) (i : Nat) : BitVec 32 := le16 bs (i + 2) ++ le16 bs i

/-- `le48(bs, i)` of R10. -/
def le48 (bs : List Byte) (i : Nat) : BitVec 48 := le16 bs (i + 4) ++ le32 bs i

/-- Bits [31:0] of a 64-bit register pair. -/
def loHalf (x : BitVec 64) : Word := x.extractLsb' 0 32

/-- Bits [63:32] of a 64-bit register pair. -/
def hiHalf (x : BitVec 64) : Word := x.extractLsb' 32 32

/-- The pair after a write of its low register. -/
def setLoHalf (x : BitVec 64) (v : Word) : BitVec 64 := hiHalf x ++ v

/-- The pair after a write of its high register. -/
def setHiHalf (x : BitVec 64) (v : Word) : BitVec 64 := v ++ loHalf x

/-- The bytes STREAM1 pushes (R105). -/
def streamBytes1 (v : BitVec 8) : List Byte := [v]

/-- The bytes STREAM2 pushes: `v[7:0]`, `v[15:8]` (R105). -/
def streamBytes2 (v : BitVec 16) : List Byte := [v.extractLsb' 0 8, v.extractLsb' 8 8]

/-- The bytes STREAM3 pushes (R105). -/
def streamBytes3 (v : BitVec 24) : List Byte := [v.extractLsb' 0 8, v.extractLsb' 8 8, v.extractLsb' 16 8]

/-- The bytes STREAM4 pushes (R105). -/
def streamBytes4 (v : BitVec 32) : List Byte := wordBytes v

/-- The bytes of PIX_IN (spec/10_state.md R46). -/
def pixInBytes (s : State) : List Byte := wordBytes s.pixIn

/-- The sixteen bytes of BLK_IN, byte k in `BLK_IN[k/4][8(k%4)+7 : 8(k%4)]` (spec/10_state.md R44). -/
def blkInBytes (s : State) : List Byte := s.blkIn.toList.flatMap wordBytes

/-- VAC_MIP read as signed (`sext_32`, R103). -/
def vacLevel (s : State) : Int := s.vac.mip.toInt

/-- The combined version, `HDR_VER_MAJOR * 256 + HDR_VER_MINOR`, exact (spec/10_state.md R39). -/
def Hdr.version (h : Hdr) : Nat := h.verMajor.toNat * 256 + h.verMinor.toNat

/-- HDR_DEPTH, the effective depth: 1 below version 7.2, else HDR_DEPTH_RAW (spec/10_state.md R39). -/
def Hdr.depth (h : Hdr) : BitVec 16 := if h.version < 7 * 256 + 2 then 1#16 else h.depthRaw

/-- EDGE_CFG.EDGE = 1: the LEGACY edge policy (spec/10_state.md R30). -/
def State.edgeLegacy (s : State) : Bool := s.edgeCfg.getLsbD 0

/-- EDGE_CFG.DXT_ROUND = 1: FLOOR (spec/10_state.md R30). -/
def State.dxtFloor (s : State) : Bool := s.edgeCfg.getLsbD 1

end Sys2Proof.Machine
end

