-- ==== Sys2Proof/Machine/Ops.lean ====
section
/-! DEFINITION. The shared operations: memories, the growth rule, raising a load error and a command error and leaving
them, and sink requests (spec/20_memory.md, spec/40_accumulator.md R153-R158, spec/45_frame_dispatcher.md R313,
spec/60_exceptions.md R352, R355). -/

namespace Sys2Proof.Machine

/-- What a meaning answers. -/
abbrev Result := Host.Outcome State Fault Refusal

/-- The byte at an address; none where nothing has been written (log entries 4 and 6). -/
def Memory.read (m : Memory) (a : Nat) : Option Byte :=
  match m with
  | [] => none
  | c :: rest => if c.1 = a then some c.2 else Memory.read rest a

/-- The memory after a byte is written, its addresses still rising. -/
def Memory.write (a : Nat) (b : Byte) (m : Memory) : Memory :=
  match m with
  | [] => [(a, b)]
  | c :: rest =>
    if a < c.1 then (a, b) :: c :: rest
    else if a = c.1 then (a, b) :: rest
    else c :: Memory.write a b rest

/-- The memory after consecutive bytes are written from an address on. -/
def Memory.writeList (a : Nat) (bs : List Byte) (m : Memory) : Memory :=
  match bs with
  | [] => m
  | b :: rest => Memory.writeList (a + 1) rest (Memory.write a b m)

/-- The canonical form: addresses strictly rising. An unlisted address holds no value, so no entry equals what an
unlisted address reads as. -/
abbrev Memory.wf (m : Memory) : Prop := List.Pairwise (fun c d : Host.Cell => c.1 < d.1) m

/-- The `n` bytes from an address on; none if one of them has never been written. -/
def Memory.readList (m : Memory) (a n : Nat) : Option (List Byte) :=
  match n with
  | 0 => some []
  | k + 1 =>
    match m.read a with
    | none => none
    | some b => (Memory.readList m (a + 1) k).map (b :: ·)

/-- `AccRead(off, n)` of spec/00_scope.md R10. None outside ACC_SIZE: "It is never a value" (spec/20_memory.md R73). -/
def accRead (s : State) (off n : Nat) : Option (List Byte) :=
  if off + n ≤ s.accSize.toNat then s.accMem.readList off n else none

/-- `release()`: the RawBuffer is freed (spec/40_accumulator.md R158). -/
def release (s : State) : State := { s with accSize := 0, accCap := 0, accMem := [] }

/-- `raise LoadError(code, info)`: what taking a load error does (spec/60_exceptions.md R352). -/
def raiseLoadError (e : LoadError) (s : State) : State :=
  { release s with
    errCode := e.code
    errInfo := e.info
    errTag := if e = .unsupportedFormat then s.hdr.format else 0
    phase := .failed }

/-- `raise CmdError(code)`: the write has no other effect (spec/60_exceptions.md R355). -/
def raiseCmdError (e : CmdError) (s : State) : State := { s with cmdErr := e.code, cerr := true }

/-- What writing 1 to STATUS.CERR does (spec/10_state.md R25). -/
def clearCmdError (s : State) : State := { s with cmdErr := 0, cerr := false }

/-- LOAD_BEGIN's effect: an empty RawBuffer, the load's registers cleared, PHASE ACCUM; out of FAILED it is the return
from a load error (spec/40_accumulator.md R155, spec/60_exceptions.md R359). -/
def beginLoad (s : State) : State :=
  { s with
    accSize := 0
    accCap := BitVec.ofNat 32 Config.accInitCapacity
    accMem := []
    payStart := 0
    payTotal := 0
    frameIdx := 0
    errCode := 0
    errInfo := 0
    errTag := 0
    req := ⟨0, 0, false, 0, 0, 0⟩
    fb := ⟨0, 0, 0, 0⟩
    phase := .accum }

/-- ABORT's effect: the load context is discarded, PHASE IDLE; out of FAILED it is the return from a load error
(spec/40_accumulator.md R157, spec/60_exceptions.md R359). -/
def abortLoad (s : State) : State :=
  { release s with frameIdx := 0, errCode := 0, errInfo := 0, errTag := 0, phase := .idle }

/-- `finish()`: the successful end of a load (spec/45_frame_dispatcher.md R320). -/
def finishLoad (s : State) : State := { release s with phase := .done }

/-- A command or a store that is accepted only while STATUS.BUSY = 0 (spec/10_state.md R21, spec/40_accumulator.md
R150). -/
def unlessBusy (s : State) (r : Result) : Result := if s.busy then .next (raiseCmdError .busy s) else r

/-- The doubling loop of spec/40_accumulator.md R153, with a bound on its turns. -/
def doubleUntil (fuel newSize cap : Nat) : Nat :=
  match fuel with
  | 0 => cap
  | k + 1 => if newSize > cap then doubleUntil k newSize (2 * cap) else cap

/-- Turns enough for every capacity above 0 and every size the 32-bit ACC_SIZE can ask for. -/
def doublingTurns : Nat := 33

/-- What `grow(newSize)` answers (R153, R154). -/
inductive Growth where
  | ok (cap : Nat)
  | outOfMemory
  | diverges
  deriving DecidableEq, Repr

/-- `cap <= ACC_MAX_CAPACITY`, written so that a capacity of at most ACC_INIT_CAPACITY needs no look at the OPEN part
of the parameter. -/
def withinMax (headroom cap : Nat) : Bool :=
  decide (cap ≤ Config.accInitCapacity) || decide (cap - Config.accInitCapacity ≤ headroom)

/-- `grow(newSize)` from capacity `cap`, ACC_MAX_CAPACITY lying `headroom` above ACC_INIT_CAPACITY (R153). -/
def grow (headroom newSize cap : Nat) : Growth :=
  let c := doubleUntil doublingTurns newSize cap
  if c < newSize then .diverges
  else if withinMax headroom c then .ok c
  else .outOfMemory

/-- A byte push of STREAMn (spec/40_accumulator.md R152). -/
def pushBytes (bs : List Byte) (s : State) : Result :=
  unlessBusy s <|
    if s.phase = .accum then
      match grow Config.accHeadroom.val (s.accSize.toNat + bs.length) s.accCap.toNat with
      | .ok cap =>
        .next { s with
          accMem := s.accMem.writeList s.accSize.toNat bs
          accSize := BitVec.ofNat 32 (s.accSize.toNat + bs.length)
          accCap := BitVec.ofNat 32 cap }
      | .outOfMemory => .next (raiseLoadError .accGrowth s)
      | .diverges => .fault .growthDiverges
    else .next (raiseCmdError .wrongPhase s)

end Sys2Proof.Machine
end

