-- ==== Sys2Proof/Machine/Format.lean ====
section
/-! DEFINITION. The twelve supported pixel formats, their units and channels (spec/30_encoding.md R120-R122,
spec/43_pixel_formats.md R230), and sink requests, which carry the alpha flag (spec/45_frame_dispatcher.md R313). -/

namespace Sys2Proof.Machine

/-- The supported formats (R121). -/
inductive Format where
  | rgba8888
  | abgr8888
  | rgb888
  | bgr888
  | rgb565
  | i8
  | ia88
  | a8
  | argb8888
  | bgra8888
  | dxt1
  | dxt5
  deriving DecidableEq, Repr

/-- The unit of a format: bytes per pixel or bytes per 4×4 block (R121). -/
inductive FormatUnit where
  | pixel (bpp : Nat)
  | block (bb : Nat)
  deriving DecidableEq, Repr

/-- The format of a tag, a 32-bit signed value; none for an unsupported tag (R120, R122). -/
def Format.ofTag (tag : Word) : Option Format :=
  match tag.toNat with
  | 0 => some .rgba8888
  | 1 => some .abgr8888
  | 2 => some .rgb888
  | 3 => some .bgr888
  | 4 => some .rgb565
  | 5 => some .i8
  | 6 => some .ia88
  | 8 => some .a8
  | 11 => some .argb8888
  | 12 => some .bgra8888
  | 13 => some .dxt1
  | 15 => some .dxt5
  | _ => none

/-- Bytes per unit (R121). -/
def Format.unit : Format → FormatUnit
  | .rgba8888 => .pixel 4
  | .abgr8888 => .pixel 4
  | .rgb888 => .pixel 3
  | .bgr888 => .pixel 3
  | .rgb565 => .pixel 2
  | .i8 => .pixel 1
  | .ia88 => .pixel 2
  | .a8 => .pixel 1
  | .argb8888 => .pixel 4
  | .bgra8888 => .pixel 4
  | .dxt1 => .block 8
  | .dxt5 => .block 16

/-- The "Alpha?" column (R121, R230). -/
def Format.hasAlpha : Format → Bool
  | .rgba8888 => true
  | .abgr8888 => true
  | .rgb888 => false
  | .bgr888 => false
  | .rgb565 => false
  | .i8 => false
  | .ia88 => true
  | .a8 => true
  | .argb8888 => true
  | .bgra8888 => true
  | .dxt1 => true
  | .dxt5 => true

/-- `hasAlpha(HDR_FORMAT)`, false for an unsupported tag (R230). -/
def Hdr.hasAlpha (h : Hdr) : Bool :=
  match Format.ofTag h.format with
  | some f => f.hasAlpha
  | none => false

/-- `nch(HDR_FORMAT)`: 4 with alpha, 3 without (R230). -/
def Hdr.nch (h : Hdr) : Nat := if h.hasAlpha then 4 else 3

/-- `request(type)`: the request registers, and the wait phase `ph` of the type (R313). -/
def raiseRequest (ph : Phase) (base : BitVec 64) (s : State) : State :=
  { s with
    req :=
      { width := s.hdr.width
        height := s.hdr.height
        hasAlpha := s.hdr.hasAlpha
        frame := s.frameIdx.setWidth 16
        seq := s.seqHandle
        base := base }
    phase := ph }

/-- `request(ALLOC)`. -/
def requestAlloc (s : State) : State := raiseRequest .allocWait 0 s

/-- `request(NOTIFY)`. -/
def requestNotify (s : State) : State := raiseRequest .notifyWait s.fb.base s

/-- `request(APPEND)`. -/
def requestAppend (s : State) : State := raiseRequest .appendWait s.fb.base s

end Sys2Proof.Machine
end

