-- ==== Sys2Proof/Machine/Vac.lean ====
section
/-! DEFINITION. The Volume Address Calculator and its commands VAC_MIPSIZE and VAC_OFFSET
(spec/42_volume_address.md). All arithmetic is exact (spec/00_scope.md R9). -/

namespace Sys2Proof.Machine

/-- What the VAC reads: W, H, D, M, F of the header latch, the format, and EDGE_CFG.DXT_ROUND. -/
structure Geometry where
  width : Nat
  height : Nat
  depth : Nat
  mips : Nat
  frames : Nat
  format : Format
  floor : Bool
  deriving DecidableEq, Repr

/-- The geometry the header latch describes, for its format. -/
def State.geometry (f : Format) (s : State) : Geometry where
  width := s.hdr.width.toNat
  height := s.hdr.height.toNat
  depth := s.hdr.depth.toNat
  mips := s.hdr.mipcount.toNat
  frames := s.hdr.frames.toNat
  format := f
  floor := s.dxtFloor

/-- `max(1, n >> level)`: mipW, mipH and mipD (R200). -/
def mipDim (n level : Nat) : Nat := max 1 (n >>> level)

/-- `ceil(n / 4)`. -/
def ceilQuarter (n : Nat) : Nat := (n + 3) / 4

/-- `sliceBytes(L)` (R201). -/
def Geometry.sliceBytes (g : Geometry) (level : Nat) : Nat :=
  match g.format.unit with
  | .pixel bpp => mipDim g.width level * mipDim g.height level * bpp
  | .block bb =>
    if g.floor then mipDim g.width level / 4 * (mipDim g.height level / 4) * bb
    else ceilQuarter (mipDim g.width level) * ceilQuarter (mipDim g.height level) * bb

/-- `mipSize(L, d)` (R202). -/
def Geometry.mipSize (g : Geometry) (level d : Nat) : Nat := g.sliceBytes level * mipDim d level

/-- The sum of `mipSize(l, D)` over the levels l from `lo` up to `hi - 1`. -/
def Geometry.mipSum (g : Geometry) (lo hi : Nat) : Nat :=
  ((List.range' lo (hi - lo)).map fun l => g.mipSize l g.depth).sum

/-- `offset(f, face, s, m)` for a level m of 0 or more (R203). -/
def Geometry.offset (g : Geometry) (frame face slice m : Nat) : Nat :=
  g.mipSum (m + 1) g.mips * g.frames * 1 + g.mipSize m g.depth * (frame * 1 + face) + g.mipSize m 1 * slice

/-- `offset(·, ·, ·, -1)`, the total payload size (R204). -/
def Geometry.total (g : Geometry) : Nat := g.mipSum 0 g.mips * g.frames

/-- `frameReadBytes` (R207). -/
def Geometry.frameReadBytes (g : Geometry) : Nat :=
  match g.format.unit with
  | .pixel bpp => g.width * g.height * bpp
  | .block bb => ceilQuarter g.width * ceilQuarter g.height * bb

/-- `src(f) = PAY_START + offset(f, 0, 0, 0)` (R207). -/
def frameSource (g : Geometry) (s : State) : Nat := s.payStart.toNat + g.offset s.frameIdx.toNat 0 0 0

/-- The range check of frame FRAME_IDX passes (spec/45_frame_dispatcher.md R312): its source bytes end at or below
ACC_SIZE. DESIGN CHOICE (log entry 30): a frame that reads no byte passes wherever its source would start, by
spec/93_implementation_defined.md U6 and spec/92_eei_decisions.md D39 and against R312's pseudocode. -/
abbrev frameInRange (g : Geometry) (s : State) : Prop :=
  g.frameReadBytes = 0 ∨ frameSource g s + g.frameReadBytes ≤ s.accSize.toNat

/-- `store_result(r)`: the result modulo 2^64, and VOVF (R210, spec/10_state.md R26). -/
def storeResult (r : Nat) (s : State) : State :=
  { s with vac.res := BitVec.ofNat 64 r, vovf := decide (2 ^ 64 ≤ r) }

/-- VAC_MIPSIZE (R208). -/
def execVacMipsize (level : Nat) (dsel : Bool) (s : State) : Result :=
  unlessBusy s <|
    match Format.ofTag s.hdr.format with
    | none => .next (raiseCmdError .unsupportedFormat s)
    | some f => .next (storeResult ((s.geometry f).mipSize level (if dsel then 1 else s.hdr.depth.toNat)) s)

/-- VAC_OFFSET (R209). -/
def execVacOffset (s : State) : Result :=
  unlessBusy s <|
    if vacLevel s < -1 then .next (raiseCmdError .badOperand s)
    else
      match Format.ofTag s.hdr.format with
      | none => .next (raiseCmdError .unsupportedFormat s)
      | some f =>
        if vacLevel s = -1 then .next (storeResult (s.geometry f).total s)
        else
          .next (storeResult
            ((s.geometry f).offset s.vac.frame.toNat s.vac.face.toNat s.vac.slice.toNat (vacLevel s).toNat) s)

end Sys2Proof.Machine
end

