-- ==== Sys2Proof/Machine/Pixel.lean ====
section
/-! DEFINITION. The per-pixel format decoders, PIX_DECODE, and writing pixels to the destination
(spec/43_pixel_formats.md). -/

namespace Sys2Proof.Machine

/-- A decoded pixel. -/
structure Pixel where
  r : Byte
  g : Byte
  b : Byte
  a : Byte
  deriving DecidableEq, Repr

/-- A pixel as PIX_OUT and BLK_OUT hold it: `R | G << 8 | B << 16 | A << 24` (spec/30_encoding.md R130). -/
def Pixel.pack (p : Pixel) : Word := p.a ++ p.b ++ p.g ++ p.r

/-- The channels in the order the destination stores them: R, G, B, A (spec/20_memory.md R77). -/
def Pixel.channels (p : Pixel) : List Byte := [p.r, p.g, p.b, p.a]

/-- `expand5(v) = (v << 3) | (v >> 2)` (R231). -/
def expand5 (v : BitVec 5) : Byte := (v.setWidth 8 <<< 3) ||| (v.setWidth 8 >>> 2)

/-- `expand6(v) = (v << 2) | (v >> 4)` (R231). -/
def expand6 (v : BitVec 6) : Byte := (v.setWidth 8 <<< 2) ||| (v.setWidth 8 >>> 4)

/-- An RGB565 word: R5 in [15:11], G6 in [10:5], B5 in [4:0] (spec/30_encoding.md R124; log entry 21). -/
def rgb565 (w : BitVec 16) : Pixel :=
  ⟨expand5 (w.extractLsb' 11 5), expand6 (w.extractLsb' 5 6), expand5 (w.extractLsb' 0 5), 255⟩

/-- RGBA8888 (R233). -/
def pixRgba8888 (b : List Byte) : Pixel := ⟨b.getD 0 0, b.getD 1 0, b.getD 2 0, b.getD 3 0⟩

/-- ABGR8888 (R234). -/
def pixAbgr8888 (b : List Byte) : Pixel := ⟨b.getD 3 0, b.getD 2 0, b.getD 1 0, b.getD 0 0⟩

/-- RGB888 (R235). -/
def pixRgb888 (b : List Byte) : Pixel := ⟨b.getD 0 0, b.getD 1 0, b.getD 2 0, 255⟩

/-- BGR888 (R236). -/
def pixBgr888 (b : List Byte) : Pixel := ⟨b.getD 2 0, b.getD 1 0, b.getD 0 0, 255⟩

/-- RGB565 (R237). -/
def pixRgb565 (b : List Byte) : Pixel := rgb565 (le16 b 0)

/-- I8 (R238). -/
def pixI8 (b : List Byte) : Pixel := ⟨b.getD 0 0, b.getD 0 0, b.getD 0 0, 255⟩

/-- IA88 (R239). -/
def pixIa88 (b : List Byte) : Pixel := ⟨b.getD 0 0, b.getD 0 0, b.getD 0 0, b.getD 1 0⟩

/-- A8 (R240). -/
def pixA8 (b : List Byte) : Pixel := ⟨255, 255, 255, b.getD 0 0⟩

/-- ARGB8888, the literal mapping b[0]→G, b[1]→B, b[2]→A, b[3]→R (R241; spec/90_conflicts.md C2). -/
def pixArgb8888 (b : List Byte) : Pixel := ⟨b.getD 3 0, b.getD 0 0, b.getD 1 0, b.getD 2 0⟩

/-- BGRA8888 (R242). -/
def pixBgra8888 (b : List Byte) : Pixel := ⟨b.getD 2 0, b.getD 1 0, b.getD 0 0, b.getD 3 0⟩

/-- PIX_DECODE's effect, the bytes of PIX_IN through one channel function into PIX_OUT (R243). The channel functions
look at no byte beyond their format's. -/
def pixDecode (f : List Byte → Pixel) (s : State) : Result :=
  unlessBusy s (.next { s with pixOut := (f (pixInBytes s)).pack })

/-- PIX_DECODE.RGBA8888. -/
def execPixRgba8888 (s : State) : Result := pixDecode pixRgba8888 s

/-- PIX_DECODE.ABGR8888. -/
def execPixAbgr8888 (s : State) : Result := pixDecode pixAbgr8888 s

/-- PIX_DECODE.RGB888. -/
def execPixRgb888 (s : State) : Result := pixDecode pixRgb888 s

/-- PIX_DECODE.BGR888. -/
def execPixBgr888 (s : State) : Result := pixDecode pixBgr888 s

/-- PIX_DECODE.RGB565. -/
def execPixRgb565 (s : State) : Result := pixDecode pixRgb565 s

/-- PIX_DECODE.I8. -/
def execPixI8 (s : State) : Result := pixDecode pixI8 s

/-- PIX_DECODE.IA88. -/
def execPixIa88 (s : State) : Result := pixDecode pixIa88 s

/-- PIX_DECODE.A8. -/
def execPixA8 (s : State) : Result := pixDecode pixA8 s

/-- PIX_DECODE.ARGB8888. -/
def execPixArgb8888 (s : State) : Result := pixDecode pixArgb8888 s

/-- PIX_DECODE.BGRA8888. -/
def execPixBgra8888 (s : State) : Result := pixDecode pixBgra8888 s

/-- What writing (part of) a frame comes to: all of it written, stopped at the buffer's end with the bytes before it
written (spec/44_block_decompressor.md R280), or a fault of the model. -/
inductive Painted where
  | done (m : Memory)
  | bounds (m : Memory)
  | fault (f : Fault)
  deriving DecidableEq, Repr

/-- Bytes written one by one at rising addresses (spec/20_memory.md R74, R77, R79). -/
def writeChannels (a : Nat) (bs : List Byte) (m : Memory) : Painted :=
  match bs with
  | [] => .done m
  | b :: rest => if a < 2 ^ 64 then writeChannels (a + 1) rest (m.write a b) else .fault .destOutsideSpace

/-- One writing action after another, stopping where one does not complete. -/
def paint {α : Type} (f : α → Memory → Painted) (as : List α) (m : Memory) : Painted :=
  match as with
  | [] => .done m
  | a :: rest =>
    match f a m with
    | .done m' => paint f rest m'
    | .bounds m' => .bounds m'
    | .fault e => .fault e

/-- The cells of a `w` by `h` grid as (x, y), row by row, each row from the left. -/
def raster (w h : Nat) : List (Nat × Nat) := (List.range h).flatMap fun y => (List.range w).map fun x => (x, y)

/-- Pixel (x, y) of a per-pixel frame (the body of R232's loops). -/
def pixelStep (f : List Byte → Pixel) (bpp srcOff : Nat) (s : State) (p : Nat × Nat) (m : Memory) : Painted :=
  match accRead s (srcOff + (p.2 * s.hdr.width.toNat + p.1) * bpp) bpp with
  | none => .fault .accReadOutOfRange
  | some b =>
    writeChannels (s.fb.base.toNat + p.2 * s.fb.stride.toNat + p.1 * s.fb.nch.toNat)
      ((f b).channels.take s.fb.nch.toNat) m

/-- `decodePixels(T, srcOff)` (R232): y, then x, then channel, all ascending. -/
def decodePixels (f : List Byte → Pixel) (bpp srcOff : Nat) (s : State) : Painted :=
  paint (pixelStep f bpp srcOff s) (raster s.hdr.width.toNat s.hdr.height.toNat) s.dest

end Sys2Proof.Machine
end

