-- ==== Sys2Proof/Machine/Block.lean ====
section
/-! DEFINITION. The DXT1/DXT5 block decompressor and BLK_DECODE (spec/44_block_decompressor.md; block layouts of
spec/30_encoding.md R125-R129). Every division truncates. -/

namespace Sys2Proof.Machine

/-- A channel of a weighted palette entry, `(u*x + v*y + bias) / div`. -/
def blend (u v bias div : Nat) (x y : Byte) : Byte := BitVec.ofNat 8 ((u * x.toNat + v * y.toNat + bias) / div)

/-- A palette colour whose R, G and B are blended alike, opaque. -/
def blendPixel (u v bias div : Nat) (p q : Pixel) : Pixel :=
  ⟨blend u v bias div p.r q.r, blend u v bias div p.g q.g, blend u v bias div p.b q.b, 255⟩

/-- The four-colour palette `pal4(c0, c1)` (R270, R271). -/
def pal4 (c0 c1 : BitVec 16) (i : BitVec 2) : Pixel :=
  match i.toNat with
  | 0 => rgb565 c0
  | 1 => rgb565 c1
  | 2 => blendPixel 4 2 3 6 (rgb565 c0) (rgb565 c1)
  | _ => blendPixel 2 4 3 6 (rgb565 c0) (rgb565 c1)

/-- The three-colour palette with transparency `pal3(c0, c1)` (R272). -/
def pal3 (c0 c1 : BitVec 16) (i : BitVec 2) : Pixel :=
  match i.toNat with
  | 0 => rgb565 c0
  | 1 => rgb565 c1
  | 2 => blendPixel 1 1 1 2 (rgb565 c0) (rgb565 c1)
  | _ => ⟨0, 0, 0, 0⟩

/-- The colour index of tile pixel k: `sel[2k+1:2k]` (spec/30_encoding.md R126). -/
def colourIndex (sel : BitVec 32) (k : Nat) : BitVec 2 := sel.extractLsb' (2 * k) 2

/-- The alpha index of tile pixel k: `asel[3k+2:3k]` (spec/30_encoding.md R128; log entry 21). -/
def alphaIndex (asel : BitVec 48) (k : Nat) : BitVec 3 := asel.extractLsb' (3 * k) 3

/-- Pixel k of a DXT1 block (R273). -/
def dxt1Pixel (blk : List Byte) (k : Nat) : Pixel :=
  if (le16 blk 0).toNat > (le16 blk 2).toNat then
    pal4 (le16 blk 0) (le16 blk 2) (colourIndex (le32 blk 4) k)
  else pal3 (le16 blk 0) (le16 blk 2) (colourIndex (le32 blk 4) k)

/-- The eight-level alpha palette, used when a0 > a1 (R274). -/
def alpha8 (a0 a1 : Byte) (i : BitVec 3) : Byte :=
  match i.toNat with
  | 0 => a0
  | 1 => a1
  | 2 => blend 12 2 7 14 a0 a1
  | 3 => blend 10 4 7 14 a0 a1
  | 4 => blend 8 6 7 14 a0 a1
  | 5 => blend 6 8 7 14 a0 a1
  | 6 => blend 4 10 7 14 a0 a1
  | _ => blend 2 12 7 14 a0 a1

/-- The six-level alpha palette, used when a0 ≤ a1 (R275). -/
def alpha6 (a0 a1 : Byte) (i : BitVec 3) : Byte :=
  match i.toNat with
  | 0 => a0
  | 1 => a1
  | 2 => blend 8 2 5 10 a0 a1
  | 3 => blend 6 4 5 10 a0 a1
  | 4 => blend 4 6 5 10 a0 a1
  | 5 => blend 2 8 5 10 a0 a1
  | 6 => 0
  | _ => 255

/-- The DXT5 alpha palette `apal(a0, a1)` (R277). -/
def alphaPalette (a0 a1 : Byte) (i : BitVec 3) : Byte :=
  if a0.toNat > a1.toNat then alpha8 a0 a1 i else alpha6 a0 a1 i

/-- Pixel k of a DXT5 block: the four-colour palette whatever the order of the endpoints (R276), its alpha replaced
by the alpha palette's (R277). -/
def dxt5Pixel (blk : List Byte) (k : Nat) : Pixel :=
  { pal4 (le16 blk 8) (le16 blk 10) (colourIndex (le32 blk 12) k) with
    a := alphaPalette (blk.getD 0 0) (blk.getD 1 0) (alphaIndex (le48 blk 2) k) }

/-- BLK_DECODE's effect: the tile of BLK_IN into BLK_OUT0 to BLK_OUT15 (R281). The block decoders look at no byte
beyond their block's. -/
def blkDecode (f : List Byte → Nat → Pixel) (s : State) : Result :=
  unlessBusy s (.next { s with blkOut := Vector.ofFn fun k => (f (blkInBytes s) k.val).pack })

/-- BLK_DECODE.DXT1. -/
def execBlkDxt1 (s : State) : Result := blkDecode dxt1Pixel s

/-- BLK_DECODE.DXT5. -/
def execBlkDxt5 (s : State) : Result := blkDecode dxt5Pixel s

/-- `writeBlockPixel(x, y, p)`: CLIP discards a pixel outside the image (R279); LEGACY writes through the stride and
stops before a pixel that would pass the buffer's end (R280). -/
def writeBlockPixel (s : State) (x y : Nat) (p : Pixel) (m : Memory) : Painted :=
  let a := s.fb.base.toNat + y * s.fb.stride.toNat + 4 * x
  if s.edgeLegacy then
    if a + 4 > s.fb.base.toNat + s.fb.size.toNat then .bounds m else writeChannels a p.channels m
  else if x < s.hdr.width.toNat ∧ y < s.hdr.height.toNat then writeChannels a p.channels m
  else .done m

/-- The sixteen pixels of the tile at block (bx, by), in tile order (R278; spec/30_encoding.md R129). -/
def writeTile (f : List Byte → Nat → Pixel) (blk : List Byte) (s : State) (bx by' : Nat) (m : Memory) : Painted :=
  paint (fun k => writeBlockPixel s (4 * bx + k % 4) (4 * by' + k / 4) (f blk k)) (List.range 16) m

/-- The block at (bx, by) of a frame (the body of R278's loops). -/
def blockStep (f : List Byte → Nat → Pixel) (bb srcOff : Nat) (s : State) (p : Nat × Nat) (m : Memory) : Painted :=
  match accRead s (srcOff + (p.2 * ceilQuarter s.hdr.width.toNat + p.1) * bb) bb with
  | none => .fault .accReadOutOfRange
  | some blk => writeTile f blk s p.1 p.2 m

/-- `decodeBlocks(T, srcOff)` (R278): tile by tile in row-major order. -/
def decodeBlocks (f : List Byte → Nat → Pixel) (bb srcOff : Nat) (s : State) : Painted :=
  paint (blockStep f bb srcOff s) (raster (ceilQuarter s.hdr.width.toNat) (ceilQuarter s.hdr.height.toNat)) s.dest

end Sys2Proof.Machine
end

