-- ==== Sys2Proof/Machine/Sink.lean ====
section
/-! DEFINITION. The host's responses to sink requests (spec/45_frame_dispatcher.md R314-R319). -/

namespace Sys2Proof.Machine

/-- `row = W * nch` (R314). -/
def rowBytes (h : Hdr) : Nat := h.width.toNat * h.nch

/-- `need`, the bytes a frame buffer must have at this stride (R314). -/
def needBytes (h : Hdr) (stride : Nat) : Nat :=
  if h.width.toNat = 0 ∨ h.height.toNat = 0 then 0 else (h.height.toNat - 1) * stride + rowBytes h

/-- The least stride that passes R314's first check: `row`, and 0 for a frame without pixels. DESIGN CHOICE (log entry
28): for H = 0 and W > 0 R314's pseudocode and spec/60_exceptions.md R353 ask for `row`, R314's corner case and
spec/92_eei_decisions.md D39 let every stride pass; the corner case is followed. -/
def leastStride (h : Hdr) : Nat := if h.width.toNat = 0 ∨ h.height.toNat = 0 then 0 else rowBytes h

/-- ACK in ALLOC_WAIT: the described buffer is checked and latched (R314; log entry 28 for a frame without pixels). -/
def ackAlloc (s : State) : State :=
  if s.rsp.stride.toNat < leastStride s.hdr then raiseLoadError .strideShort s
  else if s.rsp.size.toNat < needBytes s.hdr s.rsp.stride.toNat then raiseLoadError .sizeShort s
  else if s.rsp.base.toNat + s.rsp.size.toNat > 2 ^ 64 then raiseLoadError .addrWrap s
  else
    { s with
      fb :=
        { base := s.rsp.base
          stride := s.rsp.stride
          size := s.rsp.size
          nch := BitVec.ofNat 3 s.hdr.nch }
      phase := .decode }

/-- FAIL in ALLOC_WAIT (R315). -/
def failAlloc (s : State) : State := raiseLoadError .allocRefused s

/-- ACK in NOTIFY_WAIT (R317). -/
def ackNotify (s : State) : State := requestAppend s

/-- ACK in APPEND_WAIT (R318). -/
def ackAppend (s : State) : State := { s with frameIdx := s.frameIdx + 1, phase := .frameStart }

/-- The write of ACK, 0x1, to RSP_CTRL: what R319 says in each phase. -/
def respondAck (s : State) : State :=
  match s.phase with
  | .allocWait => ackAlloc s
  | .notifyWait => ackNotify s
  | .appendWait => ackAppend s
  | .idle | .accum | .parse | .frameStart | .decode | .done | .failed => raiseCmdError .noRequest s

/-- The write of FAIL, 0x2, to RSP_CTRL: what R319 says in each phase. -/
def respondFail (s : State) : State :=
  match s.phase with
  | .allocWait => failAlloc s
  | .notifyWait => raiseCmdError .badOperand s
  | .appendWait => raiseCmdError .badOperand s
  | .idle | .accum | .parse | .frameStart | .decode | .done | .failed => raiseCmdError .noRequest s

/-- RSP_ACK.ALLOC (R314, R319). The three ACK rows are one write; PHASE decides what it does (log entry 10). -/
def execRspAckAlloc (s : State) : Result := .next (respondAck s)

/-- RSP_FAIL.ALLOC (R315, R319). -/
def execRspFailAlloc (s : State) : Result := .next (respondFail s)

/-- RSP_ACK.NOTIFY (R317, R319). -/
def execRspAckNotify (s : State) : Result := .next (respondAck s)

/-- RSP_ACK.APPEND (R318, R319). -/
def execRspAckAppend (s : State) : Result := .next (respondAck s)

end Sys2Proof.Machine
end

