-- ==== Sys2Proof/Machine/Engine.lean ====
section
/-! DEFINITION. The engine's three steps: PARSE with the header parse and payload location, FRAME_START, and DECODE
(spec/41_header.md, spec/42_volume_address.md R206, spec/45_frame_dispatcher.md R311, R312, R316). -/

namespace Sys2Proof.Machine

/-- `HDR_BYTES`, the size of the header (spec/00_scope.md R7). -/
def hdrBytes : Nat := 80

/-- The signature 'V', 'T', 'F', 0 in register form (spec/30_encoding.md R111). -/
def signature : Word := 0x00465456#32

/-- The header latch from the file's first 80 bytes (spec/41_header.md R182; spec/30_encoding.md R110). -/
def latchHeader (h : List Byte) : Hdr where
  sig := le32 h 0
  verMajor := le32 h 4
  verMinor := le32 h 8
  headersize := le32 h 12
  width := le16 h 16
  height := le16 h 18
  flags := le32 h 20
  frames := le16 h 24
  firstframe := le16 h 26
  refl0 := le32 h 32
  refl1 := le32 h 36
  refl2 := le32 h 40
  bumpscale := le32 h 48
  format := le32 h 52
  mipcount := h.getD 56 0
  lrFormat := le32 h 57
  lrWidth := h.getD 61 0
  lrHeight := h.getD 62 0
  depthRaw := le16 h 63

/-- Payload location and the end of the PARSE step (spec/42_volume_address.md R206, R311). -/
def locatePayload (s : State) : State :=
  match Format.ofTag s.hdr.format with
  | none => raiseLoadError .unsupportedFormat s
  | some f =>
    if (s.geometry f).total > s.accSize.toNat then raiseLoadError .payloadUnderrun s
    else
      { s with
        payTotal := BitVec.ofNat 32 (s.geometry f).total
        payStart := BitVec.ofNat 32 (s.accSize.toNat - (s.geometry f).total)
        frameIdx := 0
        phase := .frameStart }

/-- The checks after the latch: signature, frame count, then the payload (spec/41_header.md R184-R186). -/
def validateHeader (s : State) : State :=
  if s.hdr.sig ≠ signature then raiseLoadError .badSignature s
  else if s.hdr.frames = 0 then raiseLoadError .zeroFrames s
  else locatePayload s

/-- The PARSE step (spec/45_frame_dispatcher.md R311; spec/41_header.md R180-R182). -/
def parseStep (s : State) : Result :=
  if s.accSize.toNat < hdrBytes then .next (raiseLoadError .shortHeader s)
  else
    match accRead s 0 hdrBytes with
    | none => .fault .accReadOutOfRange
    | some h => .next (validateHeader { s with hdr := latchHeader h })

/-- The FRAME_START step (spec/45_frame_dispatcher.md R312; the range check is `frameInRange`). An unsupported tag cannot be here after PARSE; it would
fail the load as R122 and R201 say (log entry 17). -/
def frameStartStep (s : State) : State :=
  if s.frameIdx.toNat = s.hdr.frames.toNat then finishLoad s
  else
    match Format.ofTag s.hdr.format with
    | none => raiseLoadError .unsupportedFormat s
    | some f =>
      if frameInRange (s.geometry f) s then requestAlloc s else raiseLoadError .frameRange s

/-- `decodeFrame(T, srcOff)`: one decoder per supported format (spec/43_pixel_formats.md R244). -/
def decodeFrame (f : Format) (srcOff : Nat) (s : State) : Painted :=
  match f with
  | .rgba8888 => decodePixels pixRgba8888 4 srcOff s
  | .abgr8888 => decodePixels pixAbgr8888 4 srcOff s
  | .rgb888 => decodePixels pixRgb888 3 srcOff s
  | .bgr888 => decodePixels pixBgr888 3 srcOff s
  | .rgb565 => decodePixels pixRgb565 2 srcOff s
  | .i8 => decodePixels pixI8 1 srcOff s
  | .ia88 => decodePixels pixIa88 2 srcOff s
  | .a8 => decodePixels pixA8 1 srcOff s
  | .argb8888 => decodePixels pixArgb8888 4 srcOff s
  | .bgra8888 => decodePixels pixBgra8888 4 srcOff s
  | .dxt1 => decodeBlocks dxt1Pixel 8 srcOff s
  | .dxt5 => decodeBlocks dxt5Pixel 16 srcOff s

/-- The request that follows a decoded frame: NOTIFY for frame 0, APPEND for any other (R316). -/
def requestDecoded (s : State) : State := if s.frameIdx = 0 then requestNotify s else requestAppend s

/-- The DECODE step (spec/45_frame_dispatcher.md R316): the whole frame, then the request. A LEGACY bounds error keeps
the bytes already written (spec/44_block_decompressor.md R280). -/
def decodeStep (s : State) : Result :=
  match Format.ofTag s.hdr.format with
  | none => .next (raiseLoadError .unsupportedFormat s)
  | some f =>
    match decodeFrame f (frameSource (s.geometry f) s) s with
    | .done m => .next (requestDecoded { s with dest := m })
    | .bounds m => .next (raiseLoadError .destBounds { s with dest := m })
    | .fault e => .fault e

/-- The engine's step in the present phase; in the other phases VTFDEC has none (spec/10_state.md R24,
spec/45_frame_dispatcher.md R324). -/
def engineStep (s : State) : Result :=
  match s.phase with
  | .parse => parseStep s
  | .frameStart => .next (frameStartStep s)
  | .decode => decodeStep s
  | .idle | .accum | .allocWait | .notifyWait | .appendWait | .done | .failed => .fault .stuckOnHost

/-- A turn offered to the engine: its step where one is enabled, nothing where none is (log entry 3). -/
def engineTurn (s : State) : Result := if s.phase.engineEnabled then engineStep s else .next s

/-- One turn of the host's STATUS polling (WAIT, spec/30_encoding.md R107): a read of STATUS, after which the host
goes on if the bits under `mask` equal `value`; else the engine has its turn and the host polls again
(log entry 12). -/
def pollStatus (mask value : Word) (rest : List Input) (s : State) : Result :=
  if statusWord s &&& mask = value then .next { s with inputs := rest, readData := statusWord s }
  else engineStep { s with readData := statusWord s }

end Sys2Proof.Machine
end

