-- ==== Sys2Proof/Machine/LoadControl.lean ====
section
/-! DEFINITION. NOP, LOAD_BEGIN, LOAD_END, ABORT and the byte pushes STREAM1 to STREAM4 (spec/40_accumulator.md). -/

namespace Sys2Proof.Machine

/-- NOP (R151): nothing, in any phase. -/
def execNop (s : State) : Result := .next s

/-- LOAD_BEGIN (R155). -/
def execLoadBegin (s : State) : Result :=
  unlessBusy s <|
    if s.phase = .accum then .next (raiseCmdError .wrongPhase s) else .next (beginLoad s)

/-- LOAD_END (R156). -/
def execLoadEnd (s : State) : Result :=
  unlessBusy s <|
    if s.phase = .accum then .next { s with phase := .parse } else .next (raiseCmdError .wrongPhase s)

/-- ABORT (R157), accepted in every phase. -/
def execAbort (s : State) : Result := .next (abortLoad s)

/-- STREAM1 (R152, spec/30_encoding.md R105). -/
def execStream1 (bytes : BitVec 8) (s : State) : Result := pushBytes (streamBytes1 bytes) s

/-- STREAM2. -/
def execStream2 (bytes : BitVec 16) (s : State) : Result := pushBytes (streamBytes2 bytes) s

/-- STREAM3. -/
def execStream3 (bytes : BitVec 24) (s : State) : Result := pushBytes (streamBytes3 bytes) s

/-- STREAM4. -/
def execStream4 (bytes : BitVec 32) (s : State) : Result := pushBytes (streamBytes4 bytes) s

end Sys2Proof.Machine
end

