-- ==== Sys2Proof/Machine/Dispatch.lean ====
section
/-! DEFINITION. `exec`: one arm for each instruction. -/

namespace Sys2Proof.Machine

def exec (i : Instr) (s : State) : Host.Outcome State Fault Refusal :=
  match i with
  | .nop => Sys2Proof.Machine.execNop s
  | .loadBegin => Sys2Proof.Machine.execLoadBegin s
  | .loadEnd => Sys2Proof.Machine.execLoadEnd s
  | .abort => Sys2Proof.Machine.execAbort s
  | .vacMipsize level dsel => Sys2Proof.Machine.execVacMipsize level dsel s
  | .vacOffset => Sys2Proof.Machine.execVacOffset s
  | .pixRgba8888 => Sys2Proof.Machine.execPixRgba8888 s
  | .pixAbgr8888 => Sys2Proof.Machine.execPixAbgr8888 s
  | .pixRgb888 => Sys2Proof.Machine.execPixRgb888 s
  | .pixBgr888 => Sys2Proof.Machine.execPixBgr888 s
  | .pixRgb565 => Sys2Proof.Machine.execPixRgb565 s
  | .pixI8 => Sys2Proof.Machine.execPixI8 s
  | .pixIa88 => Sys2Proof.Machine.execPixIa88 s
  | .pixA8 => Sys2Proof.Machine.execPixA8 s
  | .pixArgb8888 => Sys2Proof.Machine.execPixArgb8888 s
  | .pixBgra8888 => Sys2Proof.Machine.execPixBgra8888 s
  | .blkDxt1 => Sys2Proof.Machine.execBlkDxt1 s
  | .blkDxt5 => Sys2Proof.Machine.execBlkDxt5 s
  | .stream1 bytes _ => Sys2Proof.Machine.execStream1 bytes s
  | .stream2 bytes _ => Sys2Proof.Machine.execStream2 bytes s
  | .stream3 bytes _ => Sys2Proof.Machine.execStream3 bytes s
  | .stream4 bytes => Sys2Proof.Machine.execStream4 bytes s
  | .rspAckAlloc => Sys2Proof.Machine.execRspAckAlloc s
  | .rspFailAlloc => Sys2Proof.Machine.execRspFailAlloc s
  | .rspAckNotify => Sys2Proof.Machine.execRspAckNotify s
  | .rspAckAppend => Sys2Proof.Machine.execRspAckAppend s

end Sys2Proof.Machine
end

