-- ==== Sys2Proof/WellFormed.lean ====
section
/-! DEFINITION. The checks on instructions and transactions that their types do not already make. -/

namespace Sys2Proof

/-- An instruction whose operands fit their fields. LEVEL has eight bits (spec/30_encoding.md R101, R103); every other
operand is a bit vector of its field's width. -/
def Instr.wellFormed : Instr → Bool
  | .vacMipsize level _ => level ≤ 255
  | .nop | .loadBegin | .loadEnd | .abort | .vacOffset => true
  | .pixRgba8888 | .pixAbgr8888 | .pixRgb888 | .pixBgr888 | .pixRgb565 => true
  | .pixI8 | .pixIa88 | .pixA8 | .pixArgb8888 | .pixBgra8888 => true
  | .blkDxt1 | .blkDxt5 => true
  | .stream1 _ _ | .stream2 _ _ | .stream3 _ _ | .stream4 _ => true
  | .rspAckAlloc | .rspFailAlloc | .rspAckNotify | .rspAckAppend => true

/-- The port "carries only aligned 32-bit reads and writes" (spec/20_memory.md R71): an offset is a multiple of 4.
That it lies in the 4096-byte register space is its type. -/
def offsetAligned (offset : BitVec 12) : Bool := offset.toNat % 4 == 0

/-- A transaction the register port can carry. -/
def Txn.wellFormed (t : Txn) : Bool := offsetAligned t.offset

end Sys2Proof
end

