-- ==== Sys2Proof/Decode.lean ====
section
/-! DEFINITION. The register map's offsets, the decoder of register writes and, after it, the encoder
(spec/10_state.md, spec/30_encoding.md R100-R106). -/

namespace Sys2Proof

/-- The byte offset of each register (spec/10_state.md R22-R50). -/
def Reg.offset : Reg → BitVec 12
  | .id => 0x000#12
  | .cmd => 0x004#12
  | .status => 0x008#12
  | .cmderr => 0x00C#12
  | .errcode => 0x010#12
  | .errtag => 0x014#12
  | .ie => 0x018#12
  | .edgeCfg => 0x01C#12
  | .seqHandle => 0x020#12
  | .seqParams => 0x024#12
  | .accSize => 0x030#12
  | .accCap => 0x034#12
  | .stream1 => 0x040#12
  | .stream2 => 0x044#12
  | .stream3 => 0x048#12
  | .stream4 => 0x04C#12
  | .hdrSig => 0x060#12
  | .hdrVerMajor => 0x064#12
  | .hdrVerMinor => 0x068#12
  | .hdrHeadersize => 0x06C#12
  | .hdrWidth => 0x070#12
  | .hdrHeight => 0x074#12
  | .hdrFlags => 0x078#12
  | .hdrFrames => 0x07C#12
  | .hdrFirstframe => 0x080#12
  | .hdrRefl0 => 0x084#12
  | .hdrRefl1 => 0x088#12
  | .hdrRefl2 => 0x08C#12
  | .hdrBumpscale => 0x090#12
  | .hdrFormat => 0x094#12
  | .hdrMipcount => 0x098#12
  | .hdrLrFormat => 0x09C#12
  | .hdrLrWidth => 0x0A0#12
  | .hdrLrHeight => 0x0A4#12
  | .hdrDepthRaw => 0x0A8#12
  | .hdrDepth => 0x0AC#12
  | .payStart => 0x0C0#12
  | .payTotal => 0x0C4#12
  | .frameIdx => 0x0D0#12
  | .vacFrame => 0x0E0#12
  | .vacFace => 0x0E4#12
  | .vacSlice => 0x0E8#12
  | .vacMip => 0x0EC#12
  | .vacResLo => 0x0F0#12
  | .vacResHi => 0x0F4#12
  | .blkIn k => 0x100#12 + BitVec.ofNat 12 (4 * k.val)
  | .blkOut k => 0x140#12 + BitVec.ofNat 12 (4 * k.val)
  | .pixIn => 0x180#12
  | .pixOut => 0x184#12
  | .reqType => 0x200#12
  | .reqWidth => 0x204#12
  | .reqHeight => 0x208#12
  | .reqFlags => 0x20C#12
  | .reqFrame => 0x210#12
  | .reqSeq => 0x214#12
  | .reqBaseLo => 0x218#12
  | .reqBaseHi => 0x21C#12
  | .rspBaseLo => 0x220#12
  | .rspBaseHi => 0x224#12
  | .rspStride => 0x228#12
  | .rspSizeLo => 0x22C#12
  | .rspSizeHi => 0x230#12
  | .rspCtrl => 0x234#12
  | .fbBaseLo => 0x240#12
  | .fbBaseHi => 0x244#12
  | .fbStride => 0x248#12
  | .fbSizeLo => 0x24C#12
  | .fbSizeHi => 0x250#12
  | .fbNch => 0x254#12

/-- The identification, control, error and accumulator registers. -/
def Reg.control : List Reg :=
  [.id, .cmd, .status, .cmderr, .errcode, .errtag, .ie, .edgeCfg, .seqHandle, .seqParams, .accSize, .accCap,
   .stream1, .stream2, .stream3, .stream4]

/-- The header latch (spec/10_state.md R37). -/
def Reg.header : List Reg :=
  [.hdrSig, .hdrVerMajor, .hdrVerMinor, .hdrHeadersize, .hdrWidth, .hdrHeight, .hdrFlags, .hdrFrames,
   .hdrFirstframe, .hdrRefl0, .hdrRefl1, .hdrRefl2, .hdrBumpscale, .hdrFormat, .hdrMipcount, .hdrLrFormat,
   .hdrLrWidth, .hdrLrHeight, .hdrDepthRaw, .hdrDepth]

/-- The payload, frame-loop, VAC, tile and pixel registers. -/
def Reg.units : List Reg :=
  [.payStart, .payTotal, .frameIdx, .vacFrame, .vacFace, .vacSlice, .vacMip, .vacResLo, .vacResHi,
   .blkIn 0, .blkIn 1, .blkIn 2, .blkIn 3,
   .blkOut 0, .blkOut 1, .blkOut 2, .blkOut 3, .blkOut 4, .blkOut 5, .blkOut 6, .blkOut 7,
   .blkOut 8, .blkOut 9, .blkOut 10, .blkOut 11, .blkOut 12, .blkOut 13, .blkOut 14, .blkOut 15,
   .pixIn, .pixOut]

/-- The registers of the sink handshake (spec/10_state.md R47-R50). -/
def Reg.sink : List Reg :=
  [.reqType, .reqWidth, .reqHeight, .reqFlags, .reqFrame, .reqSeq, .reqBaseLo, .reqBaseHi,
   .rspBaseLo, .rspBaseHi, .rspStride, .rspSizeLo, .rspSizeHi, .rspCtrl,
   .fbBaseLo, .fbBaseHi, .fbStride, .fbSizeLo, .fbSizeHi, .fbNch]

/-- Every register, in the order of their offsets. -/
def Reg.all : List Reg := Reg.control ++ Reg.header ++ Reg.units ++ Reg.sink

/-- The register at a byte offset; none where no rule of spec/10_state.md assigns one (R52). -/
def Reg.ofOffset (offset : BitVec 12) : Option Reg :=
  Reg.all.find? fun r => r.offset == offset

/-- A row of the opcode map of spec/30_encoding.md R102. -/
structure OpcodeRow where
  opcode : Opcode
  pattern : Word
  mask : Word

/-- The opcode map, R102: "a word `w` is that command iff `w & mask == match`". -/
def opcodeMap : List OpcodeRow :=
  [⟨.nop, 0x00000000#32, 0xFFFFFFFF#32⟩,
   ⟨.loadBegin, 0x00000001#32, 0xFFFFFFFF#32⟩,
   ⟨.loadEnd, 0x00000002#32, 0xFFFFFFFF#32⟩,
   ⟨.abort, 0x00000003#32, 0xFFFFFFFF#32⟩,
   ⟨.vacMipsize, 0x00000010#32, 0xFFFE00FF#32⟩,
   ⟨.vacOffset, 0x00000011#32, 0xFFFFFFFF#32⟩,
   ⟨.pixDecode, 0x00000020#32, 0xFFFF00FF#32⟩,
   ⟨.blkDecode, 0x00000021#32, 0xFFFF00FF#32⟩]

/-- The opcode of a CMD word, none for an illegal command (R104). -/
def opcodeOf (w : Word) : Option Opcode :=
  (opcodeMap.find? fun r => w &&& r.mask == r.pattern).map fun r => r.opcode

/-- The ARG field [15:8]: LEVEL or TAG (R101, R103). -/
def argField (w : Word) : BitVec 8 := w.extractLsb' 8 8

/-- The DSEL field [16] (R101, R103). -/
def dselField (w : Word) : Bool := w.getLsbD 16

/-- PIX_DECODE by its TAG (spec/43_pixel_formats.md R243; tags of spec/30_encoding.md R121). -/
def decodePixTag (tag : BitVec 8) : Decoded :=
  match tag.toNat with
  | 0 => .run .pixRgba8888
  | 1 => .run .pixAbgr8888
  | 2 => .run .pixRgb888
  | 3 => .run .pixBgr888
  | 4 => .run .pixRgb565
  | 5 => .run .pixI8
  | 6 => .run .pixIa88
  | 8 => .run .pixA8
  | 11 => .run .pixArgb8888
  | 12 => .run .pixBgra8888
  | 13 => .refuse .pixBlockTag
  | 15 => .refuse .pixBlockTag
  | _ => .refuse .pixUnsupportedTag

/-- BLK_DECODE by its TAG (spec/44_block_decompressor.md R281). -/
def decodeBlkTag (tag : BitVec 8) : Decoded :=
  match tag.toNat with
  | 13 => .run .blkDxt1
  | 15 => .run .blkDxt5
  | 0 => .refuse .blkPixelTag
  | 1 => .refuse .blkPixelTag
  | 2 => .refuse .blkPixelTag
  | 3 => .refuse .blkPixelTag
  | 4 => .refuse .blkPixelTag
  | 5 => .refuse .blkPixelTag
  | 6 => .refuse .blkPixelTag
  | 8 => .refuse .blkPixelTag
  | 11 => .refuse .blkPixelTag
  | 12 => .refuse .blkPixelTag
  | _ => .refuse .blkUnsupportedTag

/-- A CMD word (R101-R104). -/
def decodeCommand (w : Word) : Decoded :=
  match opcodeOf w with
  | none => .refuse .illegalCommand
  | some .nop => .run .nop
  | some .loadBegin => .run .loadBegin
  | some .loadEnd => .run .loadEnd
  | some .abort => .run .abort
  | some .vacMipsize => .run (.vacMipsize (argField w).toNat (dselField w))
  | some .vacOffset => .run .vacOffset
  | some .pixDecode => decodePixTag (argField w)
  | some .blkDecode => decodeBlkTag (argField w)

/-- An RSP_CTRL value (R106). The table has three rows for the one word ACK, told apart by the pending request;
without a request the word stands under the first of them, whose meaning then reports NO_REQUEST (log entry 10). -/
def decodeResponse (req : ReqType) (v : Word) : Decoded :=
  if v = 1#32 then
    match req with
    | .none => .run .rspAckAlloc
    | .alloc => .run .rspAckAlloc
    | .notify => .run .rspAckNotify
    | .append => .run .rspAckAppend
  else if v = 2#32 then .run .rspFailAlloc
  else .refuse .badResponse

/-- The register write `t`, with `req` the pending request (R100). Total: every word at every offset is an
instruction, a named rejection, a plain store or a write to an unassigned offset. -/
def decode (req : ReqType) (t : Txn) : Decoded :=
  if offsetAligned t.offset then
    match Reg.ofOffset t.offset with
    | none => .unmapped
    | some .cmd => decodeCommand t.data
    | some .stream1 => .run (.stream1 (t.data.extractLsb' 0 8) (t.data.extractLsb' 8 24))
    | some .stream2 => .run (.stream2 (t.data.extractLsb' 0 16) (t.data.extractLsb' 16 16))
    | some .stream3 => .run (.stream3 (t.data.extractLsb' 0 24) (t.data.extractLsb' 24 8))
    | some .stream4 => .run (.stream4 t.data)
    | some .rspCtrl => decodeResponse req t.data
    | some r => .store r t.data
  else .refuse .misaligned

/-- A transaction named by the register it goes to. -/
def Txn.to (r : Reg) (v : Word) : Txn := ⟨r.offset, v⟩

/-- The PIX_DECODE word of a tag (R101: `0x20 | TAG << 8`). -/
def pixWord (tag : BitVec 8) : Word := 0#16 ++ tag ++ 0x20#8

/-- The BLK_DECODE word of a tag (R101: `0x21 | TAG << 8`). -/
def blkWord (tag : BitVec 8) : Word := 0#16 ++ tag ++ 0x21#8

/-- The VAC_MIPSIZE word: DSEL [16], LEVEL [15:8], OPC 0x10 (R101, R102). -/
def mipsizeWord (level : Nat) (dsel : Bool) : Word :=
  0#15 ++ BitVec.ofBool dsel ++ BitVec.ofNat 8 level ++ 0x10#8

/-- The register write of an instruction (spec/opcode_table.json; R101-R106). -/
def encode : Instr → Txn
  | .nop => .to .cmd 0x00000000#32
  | .loadBegin => .to .cmd 0x00000001#32
  | .loadEnd => .to .cmd 0x00000002#32
  | .abort => .to .cmd 0x00000003#32
  | .vacMipsize level dsel => .to .cmd (mipsizeWord level dsel)
  | .vacOffset => .to .cmd 0x00000011#32
  | .pixRgba8888 => .to .cmd (pixWord 0#8)
  | .pixAbgr8888 => .to .cmd (pixWord 1#8)
  | .pixRgb888 => .to .cmd (pixWord 2#8)
  | .pixBgr888 => .to .cmd (pixWord 3#8)
  | .pixRgb565 => .to .cmd (pixWord 4#8)
  | .pixI8 => .to .cmd (pixWord 5#8)
  | .pixIa88 => .to .cmd (pixWord 6#8)
  | .pixA8 => .to .cmd (pixWord 8#8)
  | .pixArgb8888 => .to .cmd (pixWord 11#8)
  | .pixBgra8888 => .to .cmd (pixWord 12#8)
  | .blkDxt1 => .to .cmd (blkWord 13#8)
  | .blkDxt5 => .to .cmd (blkWord 15#8)
  | .stream1 bytes ignored => .to .stream1 (ignored ++ bytes)
  | .stream2 bytes ignored => .to .stream2 (ignored ++ bytes)
  | .stream3 bytes ignored => .to .stream3 (ignored ++ bytes)
  | .stream4 bytes => .to .stream4 bytes
  | .rspAckAlloc => .to .rspCtrl 0x00000001#32
  | .rspFailAlloc => .to .rspCtrl 0x00000002#32
  | .rspAckNotify => .to .rspCtrl 0x00000001#32
  | .rspAckAppend => .to .rspCtrl 0x00000001#32

/-- The pending requests under which the decoder reads an instruction's write as that instruction. Only the three
ACK rows depend on it. -/
def Instr.readUnder (i : Instr) (req : ReqType) : Bool :=
  match i with
  | .rspAckAlloc => req == .alloc || req == .none
  | .rspAckNotify => req == .notify
  | .rspAckAppend => req == .append
  | _ => true

/-- The write that a numbered instruction of spec/opcode_table.json stands for. The table's bits are the 32-bit
value alone; which register it is written to is not among them. Up to 32 bits are read as a write to CMD; a wider
number carries the register's byte offset above bit 31 (log entry 9). -/
def tableTxn (nbits w : Nat) : Txn :=
  if nbits ≤ 32 then .to .cmd (BitVec.ofNat 32 w)
  else ⟨BitVec.ofNat 12 (w >>> 32), BitVec.ofNat 32 w⟩

/-- The instruction the decoder reads from an instruction of the table, its bits numbered as the table numbers them. -/
def decodeTableWord (nbits w : Nat) : Option Instr :=
  match decode .none (tableTxn nbits w) with
  | .run i => some i
  | .refuse _ => none
  | .store _ _ => none
  | .unmapped => none

end Sys2Proof
end

