-- ==== Sys2Proof/Machine/Registers.lean ====
section
/-! DEFINITION. Register reads and plain register stores (spec/10_state.md R20-R52), refused writes, and what the other
inputs do: host accesses to the destination memory and the reset input. -/

namespace Sys2Proof.Machine

/-- What a host read of a register returns (spec/10_state.md). Write-only registers read 0 (R20). -/
def readReg (r : Reg) (s : State) : Word :=
  match r with
  | .id => 0x56544644#32
  | .cmd => 0
  | .status => statusWord s
  | .cmderr => s.cmdErr.setWidth 32
  | .errcode => 0#16 ++ s.errInfo ++ 0#4 ++ s.errCode
  | .errtag => s.errTag
  | .ie => s.ie.setWidth 32
  | .edgeCfg => s.edgeCfg.setWidth 32
  | .seqHandle => s.seqHandle
  | .seqParams => 0x00010008#32
  | .accSize => s.accSize
  | .accCap => s.accCap
  | .stream1 => 0
  | .stream2 => 0
  | .stream3 => 0
  | .stream4 => 0
  | .hdrSig => s.hdr.sig
  | .hdrVerMajor => s.hdr.verMajor
  | .hdrVerMinor => s.hdr.verMinor
  | .hdrHeadersize => s.hdr.headersize
  | .hdrWidth => s.hdr.width.setWidth 32
  | .hdrHeight => s.hdr.height.setWidth 32
  | .hdrFlags => s.hdr.flags
  | .hdrFrames => s.hdr.frames.setWidth 32
  | .hdrFirstframe => s.hdr.firstframe.setWidth 32
  | .hdrRefl0 => s.hdr.refl0
  | .hdrRefl1 => s.hdr.refl1
  | .hdrRefl2 => s.hdr.refl2
  | .hdrBumpscale => s.hdr.bumpscale
  | .hdrFormat => s.hdr.format
  | .hdrMipcount => s.hdr.mipcount.setWidth 32
  | .hdrLrFormat => s.hdr.lrFormat
  | .hdrLrWidth => s.hdr.lrWidth.setWidth 32
  | .hdrLrHeight => s.hdr.lrHeight.setWidth 32
  | .hdrDepthRaw => s.hdr.depthRaw.setWidth 32
  | .hdrDepth => s.hdr.depth.setWidth 32
  | .payStart => s.payStart
  | .payTotal => s.payTotal
  | .frameIdx => s.frameIdx
  | .vacFrame => s.vac.frame
  | .vacFace => s.vac.face
  | .vacSlice => s.vac.slice
  | .vacMip => s.vac.mip
  | .vacResLo => loHalf s.vac.res
  | .vacResHi => hiHalf s.vac.res
  | .blkIn k => s.blkIn[k]
  | .blkOut k => s.blkOut[k]
  | .pixIn => s.pixIn
  | .pixOut => s.pixOut
  | .reqType => (reqTypeCode s.phase.reqType).setWidth 32
  | .reqWidth => s.req.width.setWidth 32
  | .reqHeight => s.req.height.setWidth 32
  | .reqFlags => (BitVec.ofBool s.req.hasAlpha).setWidth 32
  | .reqFrame => s.req.frame.setWidth 32
  | .reqSeq => s.req.seq
  | .reqBaseLo => loHalf s.req.base
  | .reqBaseHi => hiHalf s.req.base
  | .rspBaseLo => loHalf s.rsp.base
  | .rspBaseHi => hiHalf s.rsp.base
  | .rspStride => s.rsp.stride
  | .rspSizeLo => loHalf s.rsp.size
  | .rspSizeHi => hiHalf s.rsp.size
  | .rspCtrl => 0
  | .fbBaseLo => loHalf s.fb.base
  | .fbBaseHi => hiHalf s.fb.base
  | .fbStride => s.fb.stride
  | .fbSizeLo => loHalf s.fb.size
  | .fbSizeHi => hiHalf s.fb.size
  | .fbNch => s.fb.nch.setWidth 32

/-- What a host read of an offset returns; 0 where there is no register (R52). -/
def readOffset (offset : BitVec 12) (s : State) : Word :=
  match Reg.ofOffset offset with
  | some r => readReg r s
  | none => 0

/-- A host read. It changes no state of VTFDEC (R20, spec/30_encoding.md R100). -/
def hostRead (offset : BitVec 12) (s : State) : Result :=
  if offsetAligned offset then .next { s with readData := readOffset offset s }
  else .refused .misalignedPortAccess

/-- The access class of a register (spec/10_state.md R20; each register's own rule). -/
def regAccess : Reg → Access
  | .cmd | .stream1 | .stream2 | .stream3 | .stream4 | .rspCtrl => .wo
  | .status => .w1c
  | .ie | .edgeCfg | .seqHandle => .rw
  | .hdrSig | .hdrVerMajor | .hdrVerMinor | .hdrHeadersize | .hdrWidth | .hdrHeight | .hdrFlags | .hdrFrames => .rw
  | .hdrFirstframe | .hdrRefl0 | .hdrRefl1 | .hdrRefl2 | .hdrBumpscale | .hdrFormat | .hdrMipcount => .rw
  | .hdrLrFormat | .hdrLrWidth | .hdrLrHeight | .hdrDepthRaw => .rw
  | .vacFrame | .vacFace | .vacSlice | .vacMip => .rw
  | .blkIn _ | .pixIn => .rw
  | .rspBaseLo | .rspBaseHi | .rspStride | .rspSizeLo | .rspSizeHi => .rw
  | .id | .cmderr | .errcode | .errtag | .seqParams | .accSize | .accCap | .hdrDepth => .ro
  | .payStart | .payTotal | .frameIdx | .vacResLo | .vacResHi | .blkOut _ | .pixOut => .ro
  | .reqType | .reqWidth | .reqHeight | .reqFlags | .reqFrame | .reqSeq | .reqBaseLo | .reqBaseHi => .ro
  | .fbBaseLo | .fbBaseHi | .fbStride | .fbSizeLo | .fbSizeHi | .fbNch => .ro

/-- The registers whose writes "are accepted in every phase" (spec/10_state.md R21). -/
def regAnyPhase : Reg → Bool
  | .status | .ie | .rspBaseLo | .rspBaseHi | .rspStride | .rspSizeLo | .rspSizeHi | .rspCtrl | .cmd => true
  | _ => false

/-- The value goes into the register, cut to its defined bits (R20, R38). STATUS takes a 1 in its CERR bit (R25).
Read-only and write-only registers hold nothing that a store could change. -/
def writeField (r : Reg) (v : Word) (s : State) : State :=
  match r with
  | .status => if v.getLsbD 4 then clearCmdError s else s
  | .ie => { s with ie := v.setWidth 4 }
  | .edgeCfg => { s with edgeCfg := v.setWidth 2 }
  | .seqHandle => { s with seqHandle := v }
  | .hdrSig => { s with hdr.sig := v }
  | .hdrVerMajor => { s with hdr.verMajor := v }
  | .hdrVerMinor => { s with hdr.verMinor := v }
  | .hdrHeadersize => { s with hdr.headersize := v }
  | .hdrWidth => { s with hdr.width := v.setWidth 16 }
  | .hdrHeight => { s with hdr.height := v.setWidth 16 }
  | .hdrFlags => { s with hdr.flags := v }
  | .hdrFrames => { s with hdr.frames := v.setWidth 16 }
  | .hdrFirstframe => { s with hdr.firstframe := v.setWidth 16 }
  | .hdrRefl0 => { s with hdr.refl0 := v }
  | .hdrRefl1 => { s with hdr.refl1 := v }
  | .hdrRefl2 => { s with hdr.refl2 := v }
  | .hdrBumpscale => { s with hdr.bumpscale := v }
  | .hdrFormat => { s with hdr.format := v }
  | .hdrMipcount => { s with hdr.mipcount := v.setWidth 8 }
  | .hdrLrFormat => { s with hdr.lrFormat := v }
  | .hdrLrWidth => { s with hdr.lrWidth := v.setWidth 8 }
  | .hdrLrHeight => { s with hdr.lrHeight := v.setWidth 8 }
  | .hdrDepthRaw => { s with hdr.depthRaw := v.setWidth 16 }
  | .vacFrame => { s with vac.frame := v }
  | .vacFace => { s with vac.face := v }
  | .vacSlice => { s with vac.slice := v }
  | .vacMip => { s with vac.mip := v }
  | .blkIn k => { s with blkIn := s.blkIn.set k v }
  | .pixIn => { s with pixIn := v }
  | .rspBaseLo => { s with rsp.base := setLoHalf s.rsp.base v }
  | .rspBaseHi => { s with rsp.base := setHiHalf s.rsp.base v }
  | .rspStride => { s with rsp.stride := v }
  | .rspSizeLo => { s with rsp.size := setLoHalf s.rsp.size v }
  | .rspSizeHi => { s with rsp.size := setHiHalf s.rsp.size v }
  | .id | .cmderr | .errcode | .errtag | .seqParams | .accSize | .accCap | .hdrDepth => s
  | .payStart | .payTotal | .frameIdx | .vacResLo | .vacResHi | .blkOut _ | .pixOut => s
  | .reqType | .reqWidth | .reqHeight | .reqFlags | .reqFrame | .reqSeq | .reqBaseLo | .reqBaseHi => s
  | .fbBaseLo | .fbBaseHi | .fbStride | .fbSizeLo | .fbSizeHi | .fbNch => s
  | .cmd | .stream1 | .stream2 | .stream3 | .stream4 | .rspCtrl => s

/-- A plain register write: refused while BUSY where R21 does not allow it, else stored, which on a read-only register
changes nothing (R20, R21, spec/70_reset_and_hazards.md R394). DESIGN CHOICE (log entry 19): that a write to a read-only
register while BUSY is refused too follows R394 and spec/92_eei_decisions.md D28 against R20. -/
def storeReg (r : Reg) (v : Word) (s : State) : State :=
  if s.busy && !regAnyPhase r then raiseCmdError .busy s else writeField r v s

/-- A write that names no instruction: the command error it reports (spec/60_exceptions.md R356), BUSY first where
R358 puts it first. An RSP_CTRL value is checked before anything else (spec/45_frame_dispatcher.md R319). -/
def refuseWrite (r : Reject) (s : State) : Result :=
  match r with
  | .illegalCommand => .next (raiseCmdError .illegalOpcode s)
  | .pixBlockTag => unlessBusy s (.next (raiseCmdError .badOperand s))
  | .pixUnsupportedTag => unlessBusy s (.next (raiseCmdError .unsupportedFormat s))
  | .blkPixelTag => unlessBusy s (.next (raiseCmdError .badOperand s))
  | .blkUnsupportedTag => unlessBusy s (.next (raiseCmdError .unsupportedFormat s))
  | .badResponse => .next (raiseCmdError .badOperand s)
  | .misaligned => .refused .misalignedPortAccess

/-- The reset input: every register takes its reset value and ACC_MEM becomes unwritten; the destination memory and
what the host holds stay (spec/70_reset_and_hazards.md R390). -/
def resetInput (s : State) : State :=
  { State.reset with dest := s.dest, inputs := s.inputs, readData := s.readData }

/-- The host writes a byte of its memory; no rule of VTFDEC stands in the way (spec/70_reset_and_hazards.md R395). -/
def hostMemWrite (a : BitVec 64) (b : Byte) (s : State) : State := { s with dest := s.dest.write a.toNat b }

/-- The host reads a byte of its memory: what was last written there in the run, else what the host's memory held
before it (spec/93_implementation_defined.md U23). -/
def hostMemRead (a : BitVec 64) (s : State) : State :=
  { s with readData := ((s.dest.read a.toNat).getD (Config.destInit a)).setWidth 32 }

end Sys2Proof.Machine
end

