-- ==== Sys2Proof/Machine/Step.lean ====
section
/-! DEFINITION. One step of the machine: the next input, or the engine where no input is left
(spec/00_scope.md R5, R6). -/

namespace Sys2Proof.Machine

/-- A host register write (spec/30_encoding.md R100): decoded under the pending request, then run, refused or
stored. DESIGN CHOICE (log entry 29): a write to an unassigned offset is ignored while BUSY too, by spec/10_state.md
R52 and against the any other write of spec/70_reset_and_hazards.md R394. -/
def hostWrite (t : Txn) (s : State) : Result :=
  match decode s.phase.reqType t with
  | .run i => exec i s
  | .refuse r => refuseWrite r s
  | .store r v => .next (storeReg r v s)
  | .unmapped => .next s

/-- One atomic step (R6): the first of `inputs` takes effect. With no input left the engine takes its step, if one
is enabled; else VTFDEC is stuck on the host (log entries 1, 2 and 3). -/
def step (s : State) : Host.Outcome State Fault Refusal :=
  match s.inputs with
  | [] => engineStep s
  | .write t :: rest => hostWrite t { s with inputs := rest }
  | .read offset :: rest => hostRead offset { s with inputs := rest }
  | .waitStatus mask value :: rest => pollStatus mask value rest s
  | .engineTurn :: rest => engineTurn { s with inputs := rest }
  | .rst :: rest => .next (resetInput { s with inputs := rest })
  | .memWrite a b :: rest => .next (hostMemWrite a b { s with inputs := rest })
  | .memRead a :: rest => .next (hostMemRead a { s with inputs := rest })

/-- The state in which the host's next transaction is the register write of an instruction of the opcode table
(`tableTxn`; log entries 1 and 9). -/
def State.withFetchWord (s : State) (nbits w : Nat) : State := { s with inputs := .write (tableTxn nbits w) :: s.inputs }

end Sys2Proof.Machine
end

