-- ==== Sys2Proof/Machine/HostSyntax.lean ====
section
/-! DEFINITION. The host-program syntax of spec/30_encoding.md R107, as the inputs each line stands for. -/

namespace Sys2Proof.Machine

/-- `W <REG>, <value>`. -/
def hostW (r : Reg) (v : Word) : Input := .write (.to r v)

/-- `R <REG>`. -/
def hostR (r : Reg) : Input := .read r.offset

/-- `CMD <MNEMONIC> ...`, and a STREAMn push, by its instruction. -/
def hostCmd (i : Instr) : Input := .write (encode i)

/-- `PUSH <b0>, <b1>, ...`: STREAM4 for each full group of four bytes, then one STREAMr for the rest. -/
def hostPush (bs : List Byte) : List Input :=
  match bs with
  | [] => []
  | [b0] => [hostW .stream1 (0#24 ++ b0)]
  | [b0, b1] => [hostW .stream2 (0#16 ++ b1 ++ b0)]
  | [b0, b1, b2] => [hostW .stream3 (0#8 ++ b2 ++ b1 ++ b0)]
  | b0 :: b1 :: b2 :: b3 :: rest => hostW .stream4 (b3 ++ b2 ++ b1 ++ b0) :: hostPush rest

/-- `ACK`. -/
def hostAck : Input := hostW .rspCtrl 0x1#32

/-- `FAIL`. -/
def hostFail : Input := hostW .rspCtrl 0x2#32

/-- `WAIT STATUS.<field> = <value>`, the field given by its mask. -/
def hostWait (mask value : Word) : Input := .waitStatus mask value

end Sys2Proof.Machine
end

