-- ==== Sys2Proof/Safety.lean ====
section
/-! DEFINITION. What the claims speak of: the invariant of the machine, the phase table, the requests a run raises,
and what a safe step is. -/

namespace Sys2Proof.Machine

/-- The phases in which a RawBuffer is held: from LOAD_BEGIN to DONE, FAILED or ABORT
(spec/40_accumulator.md R155, R158). -/
def Phase.holdsBuffer : Phase → Bool
  | .accum | .parse | .frameStart | .allocWait | .decode | .notifyWait | .appendWait => true
  | .idle | .done | .failed => false

/-- The phases of the frame loop: PARSE has passed and the load has not ended. -/
def Phase.inLoop : Phase → Bool
  | .frameStart | .allocWait | .decode | .notifyWait | .appendWait => true
  | .idle | .accum | .parse | .done | .failed => false

/-- The phases in which frame FRAME_IDX is under way: its ALLOC has been raised and its APPEND not acknowledged. -/
def Phase.inFrame : Phase → Bool
  | .allocWait | .decode | .notifyWait | .appendWait => true
  | .idle | .accum | .parse | .frameStart | .done | .failed => false

/-- The phases in which the frame-buffer latch describes an accepted buffer for frame FRAME_IDX. -/
def Phase.hasFrameBuffer : Phase → Bool
  | .decode | .notifyWait | .appendWait => true
  | .idle | .accum | .parse | .frameStart | .allocWait | .done | .failed => false

/-- The invariant of the machine. Each field names the rule it comes from. -/
structure State.Inv (s : State) : Prop where
  /-- ACC_MEM is in canonical form. -/
  accCanonical : s.accMem.wf
  /-- The destination memory is in canonical form. -/
  destCanonical : s.dest.wf
  /-- The destination memory has 64-bit addresses (spec/20_memory.md R70). -/
  destInSpace : ∀ c ∈ s.dest, c.1 < 2 ^ 64
  /-- The written bytes of ACC_MEM are those at offsets below ACC_SIZE (spec/10_state.md R35). -/
  accListed : s.accMem.map (fun c => c.1) = List.range s.accSize.toNat
  /-- ACC_SIZE ≤ ACC_CAP (spec/10_state.md R34). -/
  sizeFits : s.accSize.toNat ≤ s.accCap.toNat
  /-- While a buffer is held ACC_CAP is the first doubling of ACC_INIT_CAPACITY that holds ACC_SIZE
  (spec/40_accumulator.md R160); else it is 0 (spec/10_state.md R34). -/
  capacity : s.accCap.toNat =
    if s.phase.holdsBuffer then doubleUntil doublingTurns s.accSize.toNat Config.accInitCapacity else 0
  /-- ACC_CAP ≤ ACC_MAX_CAPACITY (spec/40_accumulator.md R154). -/
  capWithin : withinMax Config.accHeadroom.val s.accCap.toNat = true
  /-- CMDERR reads 0 while CERR is 0 (spec/10_state.md R25). -/
  cmdErrNone : s.cerr = false → s.cmdErr = 0
  /-- CMDERR holds a code of spec/60_exceptions.md R356 while CERR is 1. -/
  cmdErrSome : s.cerr = true → ∃ e : CmdError, s.cmdErr = e.code
  /-- Outside FAILED no load error is recorded (spec/60_exceptions.md R351). -/
  errNone : s.phase ≠ .failed → s.errCode = 0 ∧ s.errInfo = 0 ∧ s.errTag = 0
  /-- In FAILED ERRCODE is a pair of spec/60_exceptions.md R353, and ERRTAG is 0 but for an unsupported tag. -/
  errSome : s.phase = .failed →
    ∃ e : LoadError, s.errCode = e.code ∧ s.errInfo = e.info ∧ (e ≠ .unsupportedFormat → s.errTag = 0)
  /-- FRAME_IDX has values 0..65535 (spec/10_state.md R41). -/
  frameIdxRange : s.frameIdx.toNat ≤ 65535
  /-- FRAME_IDX is 0 before the frame loop (spec/10_state.md R41). -/
  frameIdxStart : s.phase = .idle ∨ s.phase = .accum ∨ s.phase = .parse → s.frameIdx = 0
  /-- The payload registers are 0 before payload location (spec/10_state.md R40). -/
  payStart0 : s.phase = .accum ∨ s.phase = .parse → s.payStart = 0 ∧ s.payTotal = 0
  /-- In the frame loop the header has passed the checks of PARSE and the payload ends the file
  (spec/42_volume_address.md R206), and FRAME_IDX is at most HDR_FRAMES. -/
  located : s.phase.inLoop = true →
    s.hdr.frames ≠ 0 ∧ s.frameIdx.toNat ≤ s.hdr.frames.toNat ∧
      ∃ f, Format.ofTag s.hdr.format = some f ∧ s.payTotal.toNat = (s.geometry f).total ∧
        s.payStart.toNat + s.payTotal.toNat = s.accSize.toNat
  /-- While a frame is under way it is one of the file's frames, the source bytes it reads lie below ACC_SIZE
  (spec/45_frame_dispatcher.md R312) and the request registers describe it (R313). -/
  pending : s.phase.inFrame = true →
    s.frameIdx.toNat < s.hdr.frames.toNat ∧
      (∀ f, Format.ofTag s.hdr.format = some f → frameInRange (s.geometry f) s) ∧
      s.req.width = s.hdr.width ∧ s.req.height = s.hdr.height ∧ s.req.hasAlpha = s.hdr.hasAlpha ∧
      s.req.frame.toNat = s.frameIdx.toNat ∧ s.req.seq = s.seqHandle
  /-- An accepted frame buffer passes the checks of spec/45_frame_dispatcher.md R314. -/
  accepted : s.phase.hasFrameBuffer = true →
    leastStride s.hdr ≤ s.fb.stride.toNat ∧ needBytes s.hdr s.fb.stride.toNat ≤ s.fb.size.toNat ∧
      s.fb.base.toNat + s.fb.size.toNat ≤ 2 ^ 64 ∧ s.fb.nch.toNat = s.hdr.nch
  /-- A pending NOTIFY or APPEND names the frame buffer by its base (spec/10_state.md R47). -/
  reqBase : s.phase = .notifyWait ∨ s.phase = .appendWait → s.req.base = s.fb.base
  /-- NOTIFY is raised for frame 0 only (spec/45_frame_dispatcher.md R316). -/
  notifyFirst : s.phase = .notifyWait → s.frameIdx = 0

/-- A step is safe when it does not stop with a fault, other than finding nothing to do. -/
def State.safeStep (s : State) : Prop := ∀ e, step s = .fault e → e = .stuckOnHost

/-- The events of the phase table (spec/45_frame_dispatcher.md R310), and reset. -/
inductive Cause where
  | loadBegin
  | loadEnd
  | stream
  | abort
  | ack
  | fail
  | engine
  | reset
  deriving DecidableEq, Repr

/-- The event an instruction is; none where it is in no row of the phase table. -/
def instrCause : Instr → Option Cause
  | .loadBegin => some .loadBegin
  | .loadEnd => some .loadEnd
  | .abort => some .abort
  | .stream1 _ _ | .stream2 _ _ | .stream3 _ _ | .stream4 _ => some .stream
  | .rspAckAlloc | .rspAckNotify | .rspAckAppend => some .ack
  | .rspFailAlloc => some .fail
  | .nop | .vacMipsize _ _ | .vacOffset => none
  | .pixRgba8888 | .pixAbgr8888 | .pixRgb888 | .pixBgr888 | .pixRgb565 => none
  | .pixI8 | .pixIa88 | .pixA8 | .pixArgb8888 | .pixBgra8888 => none
  | .blkDxt1 | .blkDxt5 => none

/-- The event the next step is; none where it is in no row of the phase table. -/
def State.cause (s : State) : Option Cause :=
  match s.inputs with
  | [] => some .engine
  | .engineTurn :: _ => some .engine
  | .waitStatus _ _ :: _ => some .engine
  | .rst :: _ => some .reset
  | .write t :: _ =>
    match decode s.phase.reqType t with
    | .run i => instrCause i
    | .refuse _ => none
    | .store _ _ => none
    | .unmapped => none
  | .read _ :: _ => none
  | .memWrite _ _ :: _ => none
  | .memRead _ :: _ => none

/-- The rows of the phase table (spec/45_frame_dispatcher.md R310) but its last, ABORT from any phase. -/
def phaseTable : List (Phase × Cause × Phase) :=
  [(.idle, .loadBegin, .accum), (.done, .loadBegin, .accum), (.failed, .loadBegin, .accum),
   (.accum, .stream, .failed), (.accum, .loadEnd, .parse),
   (.parse, .engine, .frameStart), (.parse, .engine, .failed),
   (.frameStart, .engine, .done), (.frameStart, .engine, .failed), (.frameStart, .engine, .allocWait),
   (.allocWait, .ack, .decode), (.allocWait, .ack, .failed), (.allocWait, .fail, .failed),
   (.decode, .engine, .notifyWait), (.decode, .engine, .appendWait), (.decode, .engine, .failed),
   (.notifyWait, .ack, .appendWait), (.appendWait, .ack, .frameStart)]

/-- The state after `n` steps, each of them taken while BUSY; none where one is not. -/
def busyRun (n : Nat) (s : State) : Option State :=
  match n with
  | 0 => some s
  | k + 1 =>
    if s.busy then
      match step s with
      | .next t => busyRun k t
      | .fault _ => none
      | .refused _ => none
    else none

/-- The request a step raises, with its frame: entering a wait phase raises one (spec/45_frame_dispatcher.md R313). -/
def requestRaised (s t : State) : List (ReqType × Nat) :=
  if t.phase ≠ s.phase ∧ t.phase.reqType ≠ .none then [(t.phase.reqType, t.frameIdx.toNat)] else []

/-- The requests that `n` steps raise, in order. -/
def requestLog (n : Nat) (s : State) : List (ReqType × Nat) :=
  match n with
  | 0 => []
  | k + 1 =>
    match step s with
    | .next t => requestRaised s t ++ requestLog k t
    | .fault _ => []
    | .refused _ => []

/-- The requests of a load of `frames` frames (spec/45_frame_dispatcher.md R322). -/
def expectedRequests (frames : Nat) : List (ReqType × Nat) :=
  (List.range frames).flatMap fun f =>
    if f = 0 then [(.alloc, 0), (.notify, 0), (.append, 0)] else [(.alloc, f), (.append, f)]

/-- The bytes a STREAMn instruction pushes, written from spec/30_encoding.md R105; none for any other
instruction. -/
def instrPushed : Instr → Option (List Byte)
  | .stream1 v _ => some [v]
  | .stream2 v _ => some [v.extractLsb' 0 8, v.extractLsb' 8 8]
  | .stream3 v _ => some [v.extractLsb' 0 8, v.extractLsb' 8 8, v.extractLsb' 16 8]
  | .stream4 v => some [v.extractLsb' 0 8, v.extractLsb' 8 8, v.extractLsb' 16 8, v.extractLsb' 24 8]
  | .nop | .loadBegin | .loadEnd | .abort | .vacMipsize _ _ | .vacOffset => none
  | .pixRgba8888 | .pixAbgr8888 | .pixRgb888 | .pixBgr888 | .pixRgb565 => none
  | .pixI8 | .pixIa88 | .pixA8 | .pixArgb8888 | .pixBgra8888 => none
  | .blkDxt1 | .blkDxt5 => none
  | .rspAckAlloc | .rspFailAlloc | .rspAckNotify | .rspAckAppend => none

/-- Instructions one after another. -/
def execAll (is : List Instr) (s : State) : Result :=
  match is with
  | [] => .next s
  | i :: rest =>
    match exec i s with
    | .next t => execAll rest t
    | .fault e => .fault e
    | .refused r => .refused r

/-- The channel function of a per-pixel format (spec/43_pixel_formats.md R233-R242), none for a block format. -/
def Format.pixelFunction : Format → Option (List Byte → Pixel)
  | .rgba8888 => some pixRgba8888
  | .abgr8888 => some pixAbgr8888
  | .rgb888 => some pixRgb888
  | .bgr888 => some pixBgr888
  | .rgb565 => some pixRgb565
  | .i8 => some pixI8
  | .ia88 => some pixIa88
  | .a8 => some pixA8
  | .argb8888 => some pixArgb8888
  | .bgra8888 => some pixBgra8888
  | .dxt1 => none
  | .dxt5 => none

/-- The block decoder of a block format (spec/44_block_decompressor.md R273, R277), none for a per-pixel format. -/
def Format.blockFunction : Format → Option (List Byte → Nat → Pixel)
  | .dxt1 => some dxt1Pixel
  | .dxt5 => some dxt5Pixel
  | .rgba8888 | .abgr8888 | .rgb888 | .bgr888 | .rgb565 => none
  | .i8 | .ia88 | .a8 | .argb8888 | .bgra8888 => none

/-- The defined bits of a readable register (spec/10_state.md, the widths of R24-R50). -/
def regMask : Reg → Word
  | .ie => 0xF#32
  | .edgeCfg => 0x3#32
  | .hdrWidth | .hdrHeight | .hdrFrames | .hdrFirstframe | .hdrDepthRaw => 0xFFFF#32
  | .hdrMipcount | .hdrLrWidth | .hdrLrHeight => 0xFF#32
  | _ => 0xFFFFFFFF#32

/-- The state a load error leaves, written out from spec/60_exceptions.md R352 and spec/40_accumulator.md R158. -/
def State.failedWith (s : State) (code : BitVec 4) (info : BitVec 8) (tag : Word) : State :=
  { s with
    errCode := code
    errInfo := info
    errTag := tag
    accSize := 0
    accCap := 0
    accMem := []
    phase := .failed }

/-- The state a command error leaves, written out from spec/60_exceptions.md R355. -/
def State.refusedWith (s : State) (code : BitVec 4) : State := { s with cmdErr := code, cerr := true }

/-- The request registers a request leaves (spec/45_frame_dispatcher.md R313). -/
def State.requestOf (s : State) (base : BitVec 64) : Req :=
  { width := s.hdr.width
    height := s.hdr.height
    hasAlpha := s.hdr.hasAlpha
    frame := s.frameIdx.setWidth 16
    seq := s.seqHandle
    base := base }

/-- `n` bytes of a list from position `i` on, as a little-endian number (spec/20_memory.md R75). -/
def leNat (bs : List Byte) (i n : Nat) : Nat :=
  match n with
  | 0 => 0
  | k + 1 => (bs.getD i 0).toNat + 256 * leNat bs (i + 1) k

/-- Byte `k` of PIX_IN (spec/10_state.md R46). -/
def State.pixByte (s : State) (k : Nat) : Byte := s.pixIn.extractLsb' (8 * k) 8

/-- The offset in ACC_MEM of the source of frame FRAME_IDX (spec/42_volume_address.md R207). -/
def State.source (s : State) (f : Format) : Nat :=
  s.payStart.toNat + (s.geometry f).offset s.frameIdx.toNat 0 0 0

/-- The destination address of a byte of channel `c` of pixel (x, y) (spec/20_memory.md R77). -/
def State.pixelAddr (s : State) (x y c : Nat) : Nat :=
  s.fb.base.toNat + y * s.fb.stride.toNat + x * s.fb.nch.toNat + c

/-- The pixels of all tiles of a block frame in write order, each with the address LEGACY writes it to
(spec/44_block_decompressor.md R278, R280). -/
def State.tileWrites (s : State) (f : Format) (bb : Nat) (dec : List Byte → Nat → Pixel) : List (Nat × Pixel) :=
  (raster ((s.hdr.width.toNat + 3) / 4) ((s.hdr.height.toNat + 3) / 4)).flatMap fun p =>
    (List.range 16).map fun k =>
      (s.fb.base.toNat + (4 * p.2 + k / 4) * s.fb.stride.toNat + 4 * (4 * p.1 + k % 4),
        dec ((accRead s (s.source f + (p.2 * ((s.hdr.width.toNat + 3) / 4) + p.1) * bb) bb).getD []) k)

/-- A load's work left: no load step that changes PHASE leaves it as large as it was
(spec/70_reset_and_hazards.md R399). -/
def State.loadRank (s : State) : Nat :=
  match s.phase with
  | .parse => 5 * 65536 + 1
  | .frameStart => 5 * (s.hdr.frames.toNat - s.frameIdx.toNat) + 5
  | .allocWait => 5 * (s.hdr.frames.toNat - s.frameIdx.toNat) + 4
  | .decode => 5 * (s.hdr.frames.toNat - s.frameIdx.toNat) + 3
  | .notifyWait => 5 * (s.hdr.frames.toNat - s.frameIdx.toNat) + 2
  | .appendWait => 5 * (s.hdr.frames.toNat - s.frameIdx.toNat) + 1
  | .idle | .accum | .done | .failed => 0

/-- One turn of a load whose host answers every request with ACK: the engine's step where one is enabled, else the
host's answer. -/
def serveOnce (s : State) : Result :=
  if s.phase.engineEnabled then engineStep s else hostWrite (.to .rspCtrl 1#32) s

/-- At most `n` such turns, ending where the load is no longer BUSY. -/
def serve (n : Nat) (s : State) : State :=
  match n with
  | 0 => s
  | k + 1 =>
    if s.busy then
      match serveOnce s with
      | .next t => serve k t
      | .fault _ => s
      | .refused _ => s
    else s

end Sys2Proof.Machine
end

