-- ==== Sys2Proof/Certificates/Slice0/Obligations.lean ====
section
/-! DEFINITION. The statements for the provers, family by family: encodings, the register port, load control and the
accumulator, the volume addresses, pixels and tiles, the engine's steps, the responses, and the whole machine. -/

open Sys2Proof Sys2Proof.Machine

/-! ### Encodings (spec/30_encoding.md) -/

/-- R100 to R106: decoding the write of a well-formed instruction gives that instruction back, under every pending
request under which the decoder reads that row. That the word ACK stands for RSP_ACK.ALLOC also where no request is
pending is the model's choice (log entry 10): `readUnder` allows it, and the meaning then reports NO_REQUEST. -/
def Obligations.DecodeOfEncodeIsTheInstruction : Prop :=
  ∀ (i : Instr) (req : ReqType), i.wellFormed = true → i.readUnder req = true → decode req (encode i) = .run i

/-- R100 to R106: a write that decodes to an instruction is that instruction's encoding, bit for bit, and the
instruction is well-formed and read under a pending request of its row. That the word ACK is RSP_ACK.ALLOC where no
request is pending is the model's choice (log entry 10). -/
def Obligations.EncodeOfDecodeIsTheWrite : Prop :=
  ∀ (req : ReqType) (t : Txn) (i : Instr),
    decode req t = .run i → encode i = t ∧ i.wellFormed = true ∧ i.readUnder req = true

/-- R104 with R101 and R102: a word matches a row of the opcode map exactly when its OPC is allocated and its reserved
bits are 0; no word matches two rows; a word that matches none is refused with ILLEGAL_OPCODE and nothing else. -/
def Obligations.IllegalCommandWordsAreRefused : Prop :=
  (∀ w : Word,
    (∃ r ∈ opcodeMap, w &&& r.mask = r.pattern) ↔
      (w.extractLsb' 0 8 ∈ [0x00#8, 0x01#8, 0x02#8, 0x03#8, 0x11#8] ∧ w.extractLsb' 8 24 = 0#24) ∨
      (w.extractLsb' 0 8 = 0x10#8 ∧ w.extractLsb' 17 15 = 0#15) ∨
      (w.extractLsb' 0 8 ∈ [0x20#8, 0x21#8] ∧ w.extractLsb' 16 16 = 0#16)) ∧
  (opcodeMap.Pairwise fun r r' => ∀ w : Word, ¬(w &&& r.mask = r.pattern ∧ w &&& r'.mask = r'.pattern)) ∧
  ∀ (w : Word) (s : State), (∀ r ∈ opcodeMap, w &&& r.mask ≠ r.pattern) →
    hostWrite (.to .cmd w) s = .next (s.refusedWith 1#4)

/-- R102 and R105: words written out from the opcode table and the STREAMn and RSP_CTRL encodings decode to the
instructions they stand for. -/
def Obligations.WordsOfTheSpecDecode : Prop :=
  decode .none ⟨0x004#12, 0x00000001#32⟩ = .run .loadBegin ∧
  decode .none ⟨0x004#12, 0x00000810#32⟩ = .run (.vacMipsize 8 false) ∧
  decode .none ⟨0x004#12, 0x0001FF10#32⟩ = .run (.vacMipsize 255 true) ∧
  decode .none ⟨0x004#12, 0x00000B20#32⟩ = .run .pixArgb8888 ∧
  decode .none ⟨0x004#12, 0x00000D21#32⟩ = .run .blkDxt1 ∧
  decode .none ⟨0x048#12, 0xAA465456#32⟩ = .run (.stream3 0x465456#24 0xAA#8) ∧
  decode .notify ⟨0x234#12, 0x00000001#32⟩ = .run .rspAckNotify ∧
  decode .none ⟨0x004#12, 0x00010000#32⟩ = .refuse .illegalCommand

/-- 00_scope.md R6 and R100: one step of the machine takes the host's next transaction off the list of inputs and,
where it decodes to an instruction, is exactly that instruction's meaning; with no transaction left it is the engine's
step. The list itself is the model's own (log entry 1), and so is `withFetchWord` (log entry 9), whose next step runs the
instruction that `decodeTableWord` reads. -/
def Obligations.StepRunsTheDecodedInstruction : Prop :=
  (∀ (s : State) (t : Txn) (rest : List Input) (i : Instr),
    s.inputs = .write t :: rest → decode s.phase.reqType t = .run i →
      step s = exec i { s with inputs := rest }) ∧
  (∀ s : State, s.inputs = [] → step s = engineStep s) ∧
  ∀ (s : State) (nbits w : Nat) (i : Instr), s.phase.reqType = .none → decodeTableWord nbits w = some i →
    step (s.withFetchWord nbits w) = exec i s

/-! ### The register port (spec/10_state.md, spec/60_exceptions.md R355-R358) -/

/-- R20, R21 and R38: an accepted write of an RW register stores the value cut to the register's defined bits, and
no other register (but HDR_DEPTH, which R39 derives) and no memory changes. -/
def Obligations.PlainStoreReadsBackAndNothingElseChanges : Prop :=
  ∀ (r : Reg) (v : Word) (s : State), regAccess r = .rw → (s.busy = false ∨ regAnyPhase r = true) →
    ∃ t, hostWrite (.to r v) s = .next t ∧ readReg r t = v &&& regMask r ∧
      (∀ r', r' ≠ r → r' ≠ .hdrDepth → readReg r' t = readReg r' s) ∧
      t.accMem = s.accMem ∧ t.dest = s.dest ∧ t.inputs = s.inputs ∧ t.readData = s.readData

/-- R20 to R50, the register map row by row: every RW register with its own offset and its defined bits; every read-only
and every write-only register with its own offset; STATUS at its offset the only W1C register; no other register and
no two at one offset. -/
def Obligations.RegisterMapIsTheSpecs : Prop :=
  (∀ r : Reg, regAccess r = .rw ↔ (r, r.offset, regMask r) ∈ [
    (Reg.ie, 0x018#12, 0xF#32), (.edgeCfg, 0x01C#12, 0x3#32), (.seqHandle, 0x020#12, 0xFFFFFFFF#32),
    (.hdrSig, 0x060#12, 0xFFFFFFFF#32), (.hdrVerMajor, 0x064#12, 0xFFFFFFFF#32),
    (.hdrVerMinor, 0x068#12, 0xFFFFFFFF#32), (.hdrHeadersize, 0x06C#12, 0xFFFFFFFF#32),
    (.hdrWidth, 0x070#12, 0xFFFF#32), (.hdrHeight, 0x074#12, 0xFFFF#32), (.hdrFlags, 0x078#12, 0xFFFFFFFF#32),
    (.hdrFrames, 0x07C#12, 0xFFFF#32), (.hdrFirstframe, 0x080#12, 0xFFFF#32), (.hdrRefl0, 0x084#12, 0xFFFFFFFF#32),
    (.hdrRefl1, 0x088#12, 0xFFFFFFFF#32), (.hdrRefl2, 0x08C#12, 0xFFFFFFFF#32),
    (.hdrBumpscale, 0x090#12, 0xFFFFFFFF#32), (.hdrFormat, 0x094#12, 0xFFFFFFFF#32),
    (.hdrMipcount, 0x098#12, 0xFF#32), (.hdrLrFormat, 0x09C#12, 0xFFFFFFFF#32), (.hdrLrWidth, 0x0A0#12, 0xFF#32),
    (.hdrLrHeight, 0x0A4#12, 0xFF#32), (.hdrDepthRaw, 0x0A8#12, 0xFFFF#32), (.vacFrame, 0x0E0#12, 0xFFFFFFFF#32),
    (.vacFace, 0x0E4#12, 0xFFFFFFFF#32), (.vacSlice, 0x0E8#12, 0xFFFFFFFF#32), (.vacMip, 0x0EC#12, 0xFFFFFFFF#32),
    (.blkIn 0, 0x100#12, 0xFFFFFFFF#32), (.blkIn 1, 0x104#12, 0xFFFFFFFF#32), (.blkIn 2, 0x108#12, 0xFFFFFFFF#32),
    (.blkIn 3, 0x10C#12, 0xFFFFFFFF#32), (.pixIn, 0x180#12, 0xFFFFFFFF#32), (.rspBaseLo, 0x220#12, 0xFFFFFFFF#32),
    (.rspBaseHi, 0x224#12, 0xFFFFFFFF#32), (.rspStride, 0x228#12, 0xFFFFFFFF#32),
    (.rspSizeLo, 0x22C#12, 0xFFFFFFFF#32), (.rspSizeHi, 0x230#12, 0xFFFFFFFF#32)]) ∧
  (∀ r : Reg, regAccess r = .ro ↔ (r, r.offset) ∈ [
    (Reg.id, 0x000#12), (.cmderr, 0x00C#12), (.errcode, 0x010#12), (.errtag, 0x014#12), (.seqParams, 0x024#12),
    (.accSize, 0x030#12), (.accCap, 0x034#12), (.hdrDepth, 0x0AC#12), (.payStart, 0x0C0#12), (.payTotal, 0x0C4#12),
    (.frameIdx, 0x0D0#12), (.vacResLo, 0x0F0#12), (.vacResHi, 0x0F4#12), (.blkOut 0, 0x140#12),
    (.blkOut 1, 0x144#12), (.blkOut 2, 0x148#12), (.blkOut 3, 0x14C#12), (.blkOut 4, 0x150#12),
    (.blkOut 5, 0x154#12), (.blkOut 6, 0x158#12), (.blkOut 7, 0x15C#12), (.blkOut 8, 0x160#12),
    (.blkOut 9, 0x164#12), (.blkOut 10, 0x168#12), (.blkOut 11, 0x16C#12), (.blkOut 12, 0x170#12),
    (.blkOut 13, 0x174#12), (.blkOut 14, 0x178#12), (.blkOut 15, 0x17C#12), (.pixOut, 0x184#12),
    (.reqType, 0x200#12), (.reqWidth, 0x204#12), (.reqHeight, 0x208#12), (.reqFlags, 0x20C#12),
    (.reqFrame, 0x210#12), (.reqSeq, 0x214#12), (.reqBaseLo, 0x218#12), (.reqBaseHi, 0x21C#12),
    (.fbBaseLo, 0x240#12), (.fbBaseHi, 0x244#12), (.fbStride, 0x248#12), (.fbSizeLo, 0x24C#12),
    (.fbSizeHi, 0x250#12), (.fbNch, 0x254#12)]) ∧
  (∀ r : Reg, regAccess r = .wo ↔ (r, r.offset) ∈ [
    (Reg.cmd, 0x004#12), (.stream1, 0x040#12), (.stream2, 0x044#12), (.stream3, 0x048#12), (.stream4, 0x04C#12),
    (.rspCtrl, 0x234#12)]) ∧
  (∀ r : Reg, regAccess r = .w1c ↔ (r, r.offset) = (.status, 0x008#12)) ∧
  ∀ r r' : Reg, r.offset = r'.offset → r = r'

/-- R21: IE and the response registers take writes in every phase; a write while BUSY to any register that is neither
read-only nor one of the nine R21 names is dropped with CmdError(BUSY). (What STATUS, CMD and RSP_CTRL do with a write
in each phase is R25, R150 and R319, stated below.) -/
def Obligations.BusyWritesAreDropped : Prop :=
  (∀ (r : Reg) (v : Word) (s : State), r ∈ [.ie, .rspBaseLo, .rspBaseHi, .rspStride, .rspSizeLo, .rspSizeHi] →
    ∃ t, hostWrite (.to r v) s = .next t ∧ readReg r t = v &&& regMask r ∧ t.cerr = s.cerr ∧ t.cmdErr = s.cmdErr) ∧
  ∀ (r : Reg) (v : Word) (s : State), s.busy = true → regAccess r ≠ .ro →
    r ∉ [.status, .ie, .rspBaseLo, .rspBaseHi, .rspStride, .rspSizeLo, .rspSizeHi, .rspCtrl, .cmd] →
    hostWrite (.to r v) s = .next (s.refusedWith 3#4)

/-- R394 and R397: while a load is under way no step but reset changes the configuration, and only the PARSE step
changes the header latch. -/
def Obligations.ConfigurationIsFrozenWhileBusy : Prop :=
  ∀ (s t : State), s.busy = true → (∀ rest, s.inputs ≠ .rst :: rest) → step s = .next t →
    t.edgeCfg = s.edgeCfg ∧ t.seqHandle = s.seqHandle ∧ t.vac = s.vac ∧ t.blkIn = s.blkIn ∧ t.pixIn = s.pixIn ∧
      (s.phase ≠ .parse ∨ s.cause ≠ some .engine → t.hdr = s.hdr)

/-- R52 and the RO class of R20: a write to an offset with no register changes nothing and reports no error, and such an
offset reads 0; a write to a read-only register changes nothing and reports no error while the machine is not BUSY, and
while BUSY it is refused with CmdError(BUSY). What the two do while BUSY is the model's choice between R20 and R52 on one
side and R394, R356 and decision D28 on the other (log entries 19 and 29). -/
def Obligations.UnassignedAndReadOnlyWritesAreIgnored : Prop :=
  (∀ (offset : BitVec 12) (v : Word) (s : State), offset.toNat % 4 = 0 → (∀ r : Reg, r.offset ≠ offset) →
    hostWrite ⟨offset, v⟩ s = .next s ∧ readOffset offset s = 0#32) ∧
  ∀ (r : Reg) (v : Word) (s : State), regAccess r = .ro →
    hostWrite (.to r v) s = .next (if s.busy then s.refusedWith 3#4 else s)

/-- R20, R22, R23, R32, R36, R49 and 30_encoding.md R100: a host read changes nothing of VTFDEC (the value it returns goes
to the model's own `readData`); ID and SEQ_PARAMS read as their constants, and the write-only registers as 0. -/
def Obligations.ReadsChangeNothing : Prop :=
  (∀ (s : State) (offset : BitVec 12) (rest : List Input), s.inputs = .read offset :: rest → offset.toNat % 4 = 0 →
    step s = .next { s with inputs := rest, readData := readOffset offset s }) ∧
  ∀ s : State,
    readOffset 0x000#12 s = 0x56544644#32 ∧ readOffset 0x024#12 s = 0x00010008#32 ∧
    ∀ offset ∈ [0x004#12, 0x040#12, 0x044#12, 0x048#12, 0x04C#12, 0x234#12], readOffset offset s = 0#32

/-- 10_state.md R24 to R50: what a host read of each readable register's offset returns, in bits: the field of the state
that stands behind the register, with 0 above its defined bits. (STATUS, REQ_TYPE and HDR_DEPTH, which are functions of
others, are stated by themselves; ID, SEQ_PARAMS and the write-only registers above.) -/
def Obligations.OffsetsReadTheirRegisters : Prop :=
  ∀ s : State,
    (∀ row ∈ [
        (0x00C#12, 0#28 ++ s.cmdErr), (0x010#12, 0#16 ++ s.errInfo ++ 0#4 ++ s.errCode), (0x014#12, s.errTag),
        (0x018#12, 0#28 ++ s.ie), (0x01C#12, 0#30 ++ s.edgeCfg), (0x020#12, s.seqHandle), (0x030#12, s.accSize),
        (0x034#12, s.accCap), (0x060#12, s.hdr.sig), (0x064#12, s.hdr.verMajor), (0x068#12, s.hdr.verMinor),
        (0x06C#12, s.hdr.headersize), (0x070#12, 0#16 ++ s.hdr.width), (0x074#12, 0#16 ++ s.hdr.height),
        (0x078#12, s.hdr.flags), (0x07C#12, 0#16 ++ s.hdr.frames), (0x080#12, 0#16 ++ s.hdr.firstframe),
        (0x084#12, s.hdr.refl0), (0x088#12, s.hdr.refl1), (0x08C#12, s.hdr.refl2), (0x090#12, s.hdr.bumpscale),
        (0x094#12, s.hdr.format), (0x098#12, 0#24 ++ s.hdr.mipcount), (0x09C#12, s.hdr.lrFormat),
        (0x0A0#12, 0#24 ++ s.hdr.lrWidth), (0x0A4#12, 0#24 ++ s.hdr.lrHeight), (0x0A8#12, 0#16 ++ s.hdr.depthRaw),
        (0x0C0#12, s.payStart), (0x0C4#12, s.payTotal), (0x0D0#12, s.frameIdx), (0x0E0#12, s.vac.frame),
        (0x0E4#12, s.vac.face), (0x0E8#12, s.vac.slice), (0x0EC#12, s.vac.mip),
        (0x0F0#12, s.vac.res.extractLsb' 0 32), (0x0F4#12, s.vac.res.extractLsb' 32 32), (0x180#12, s.pixIn),
        (0x184#12, s.pixOut), (0x204#12, 0#16 ++ s.req.width), (0x208#12, 0#16 ++ s.req.height),
        (0x20C#12, 0#31 ++ BitVec.ofBool s.req.hasAlpha), (0x210#12, 0#16 ++ s.req.frame), (0x214#12, s.req.seq),
        (0x218#12, s.req.base.extractLsb' 0 32), (0x21C#12, s.req.base.extractLsb' 32 32),
        (0x220#12, s.rsp.base.extractLsb' 0 32), (0x224#12, s.rsp.base.extractLsb' 32 32), (0x228#12, s.rsp.stride),
        (0x22C#12, s.rsp.size.extractLsb' 0 32), (0x230#12, s.rsp.size.extractLsb' 32 32),
        (0x240#12, s.fb.base.extractLsb' 0 32), (0x244#12, s.fb.base.extractLsb' 32 32), (0x248#12, s.fb.stride),
        (0x24C#12, s.fb.size.extractLsb' 0 32), (0x250#12, s.fb.size.extractLsb' 32 32), (0x254#12, 0#29 ++ s.fb.nch)],
      readOffset row.1 s = row.2) ∧
    (∀ k : Fin 4, readOffset (0x100#12 + 4#12 * BitVec.ofNat 12 k.val) s = s.blkIn[k]) ∧
    ∀ k : Fin 16, readOffset (0x140#12 + 4#12 * BitVec.ofNat 12 k.val) s = s.blkOut[k]

/-- R24, the REQ_TYPE row of R47, and 60_exceptions.md R361: STATUS bits [11:8] read the code of the phase, each of the
ten phases its own of R24; the other fields of STATUS follow PHASE, CERR and VOVF; REQ_TYPE follows PHASE; `irq` follows
STATUS and IE; and `irq` and STATUS are 0 after reset. -/
def Obligations.StatusAndIrqFollowTheState : Prop :=
  (∀ s : State, ∀ row ∈ [(Phase.idle, 0#4), (.accum, 1#4), (.parse, 2#4), (.frameStart, 3#4), (.allocWait, 4#4),
      (.decode, 5#4), (.notifyWait, 6#4), (.appendWait, 7#4), (.done, 8#4), (.failed, 9#4)],
    (readOffset 0x008#12 s).extractLsb' 8 4 = row.2 ↔ s.phase = row.1) ∧
  (∀ s : State, ∀ p, p = (readOffset 0x008#12 s).extractLsb' 8 4 →
    p.toNat ≤ 9 ∧
    ((readOffset 0x008#12 s).getLsbD 0 = true ↔ 2 ≤ p.toNat ∧ p.toNat ≤ 7) ∧
    ((readOffset 0x008#12 s).getLsbD 1 = true ↔ p.toNat = 8) ∧
    ((readOffset 0x008#12 s).getLsbD 2 = true ↔ p.toNat = 9) ∧
    ((readOffset 0x008#12 s).getLsbD 3 = true ↔ p.toNat = 4 ∨ p.toNat = 6 ∨ p.toNat = 7) ∧
    (readOffset 0x008#12 s).getLsbD 4 = s.cerr ∧ (readOffset 0x008#12 s).getLsbD 5 = s.vovf ∧
    (readOffset 0x008#12 s).extractLsb' 6 2 = 0#2 ∧ (readOffset 0x008#12 s).extractLsb' 12 20 = 0#20 ∧
    readOffset 0x200#12 s =
      if p.toNat = 4 then 1#32 else if p.toNat = 6 then 2#32 else if p.toNat = 7 then 3#32 else 0#32) ∧
  (∀ s : State, s.irq = true ↔
    ((readOffset 0x008#12 s).getLsbD 1 = true ∧ (readOffset 0x018#12 s).getLsbD 0 = true) ∨
    ((readOffset 0x008#12 s).getLsbD 2 = true ∧ (readOffset 0x018#12 s).getLsbD 1 = true) ∨
    ((readOffset 0x008#12 s).getLsbD 3 = true ∧ (readOffset 0x018#12 s).getLsbD 2 = true) ∨
    ((readOffset 0x008#12 s).getLsbD 4 = true ∧ (readOffset 0x018#12 s).getLsbD 3 = true)) ∧
  readOffset 0x008#12 State.reset = 0#32 ∧ State.reset.irq = false

/-- R25: CMDERR reads the recorded code; a 1 written to STATUS bit 4 clears CERR and CMDERR.CODE and nothing else, in
every phase; a 0 there changes nothing. -/
def Obligations.StatusWriteClearsTheCommandError : Prop :=
  ∀ (v : Word) (s : State),
    readOffset 0x00C#12 s = 0#28 ++ s.cmdErr ∧
    hostWrite ⟨0x008#12, v⟩ s = .next (if v.getLsbD 4 then { s with cerr := false, cmdErr := 0#4 } else s)

/-- R39: HDR_DEPTH reads 1 below version 7.2 and HDR_DEPTH_RAW from 7.2 on, the version computed exactly; after reset
it reads 1. -/
def Obligations.EffectiveDepthFollowsTheVersion : Prop :=
  (∀ s : State, readOffset 0x0AC#12 s =
    if s.hdr.verMajor.toNat * 256 + s.hdr.verMinor.toNat < 1794 then 1#32 else 0#16 ++ s.hdr.depthRaw) ∧
  readOffset 0x0AC#12 State.reset = 1#32

/-- The errors of PIX_DECODE (43_pixel_formats.md R243) and BLK_DECODE (44_block_decompressor.md R281) on a TAG that is
not theirs: BUSY first, then BAD_OPERAND for a tag of the other kind, then UNSUPPORTED_FORMAT; PIX_OUT and BLK_OUT are
left alone. -/
def Obligations.ForeignTagsAreRefused : Prop :=
  ∀ (tag : BitVec 8) (s : State),
    (tag.toNat ∉ [0, 1, 2, 3, 4, 5, 6, 8, 11, 12] →
      hostWrite ⟨0x004#12, 0#16 ++ tag ++ 0x20#8⟩ s = .next
        (s.refusedWith (if s.busy then 3#4 else if tag.toNat = 13 ∨ tag.toNat = 15 then 4#4 else 5#4))) ∧
    (tag.toNat ∉ [13, 15] →
      hostWrite ⟨0x004#12, 0#16 ++ tag ++ 0x21#8⟩ s = .next
        (s.refusedWith
          (if s.busy then 3#4 else if tag.toNat ∈ [0, 1, 2, 3, 4, 5, 6, 8, 11, 12] then 4#4 else 5#4)))

/-- 40_accumulator.md R150 and R358: while BUSY every instruction but NOP, ABORT and the responses is refused with
CmdError(BUSY) and does nothing else. -/
def Obligations.BusyCommandsAreRefused : Prop :=
  ∀ (i : Instr) (s : State), s.busy = true → i ≠ .nop → i ≠ .abort → (encode i).offset ≠ 0x234#12 →
    exec i s = .next (s.refusedWith 3#4)

/-- 45_frame_dispatcher.md R319, all of it: the errors of a write to RSP_CTRL in their order, and otherwise the
response's own rule. -/
def Obligations.ResponseWritesAreCheckedInOrder : Prop :=
  ∀ (v : Word) (s : State),
    (v ≠ 1#32 → v ≠ 2#32 → hostWrite ⟨0x234#12, v⟩ s = .next (s.refusedWith 4#4)) ∧
    ((v = 1#32 ∨ v = 2#32) → s.phase ≠ .allocWait → s.phase ≠ .notifyWait → s.phase ≠ .appendWait →
      hostWrite ⟨0x234#12, v⟩ s = .next (s.refusedWith 6#4)) ∧
    (v = 2#32 → (s.phase = .notifyWait ∨ s.phase = .appendWait) →
      hostWrite ⟨0x234#12, v⟩ s = .next (s.refusedWith 4#4)) ∧
    (v = 2#32 → s.phase = .allocWait → hostWrite ⟨0x234#12, v⟩ s = exec .rspFailAlloc s) ∧
    (v = 1#32 → s.phase = .allocWait → hostWrite ⟨0x234#12, v⟩ s = exec .rspAckAlloc s) ∧
    (v = 1#32 → s.phase = .notifyWait → hostWrite ⟨0x234#12, v⟩ s = exec .rspAckNotify s) ∧
    (v = 1#32 → s.phase = .appendWait → hostWrite ⟨0x234#12, v⟩ s = exec .rspAckAppend s)

/-! ### Load control and the accumulator (spec/40_accumulator.md) -/

/-- R155 and R156. LOAD_BEGIN in IDLE, DONE and FAILED, with everything it leaves unchanged, WRONG_PHASE in ACCUM; LOAD_END
in ACCUM, which changes PHASE alone, WRONG_PHASE in the other phases that are not BUSY; BUSY for both while BUSY. -/
def Obligations.LoadBeginAndLoadEndBoundTheAccumulation : Prop :=
  ∀ s : State,
    ((s.phase = .idle ∨ s.phase = .done ∨ s.phase = .failed) →
      exec .loadBegin s = .next { s with
        accSize := 0#32, accCap := 1000000#32, accMem := [], payStart := 0#32, payTotal := 0#32, frameIdx := 0#32,
        errCode := 0#4, errInfo := 0#8, errTag := 0#32, req := ⟨0, 0, false, 0, 0, 0⟩, fb := ⟨0, 0, 0, 0⟩,
        phase := .accum } ∧
      exec .loadEnd s = .next (s.refusedWith 2#4)) ∧
    (s.phase = .accum →
      exec .loadBegin s = .next (s.refusedWith 2#4) ∧ exec .loadEnd s = .next { s with phase := .parse }) ∧
    (s.busy = true →
      exec .loadBegin s = .next (s.refusedWith 3#4) ∧ exec .loadEnd s = .next (s.refusedWith 3#4))

/-- R151, R157 and R158, the two commands accepted in every phase: NOP leaves every register and every byte as it is, and
only the word 0 is a NOP; ABORT releases the buffer, clears FRAME_IDX and the error registers, and goes to IDLE. -/
def Obligations.NopAndAbortRunInEveryPhase : Prop :=
  (∀ s : State, exec .nop s = .next s) ∧ (∀ w : Word, decodeCommand w = .run .nop ↔ w = 0x00000000#32) ∧
  ∀ s : State, exec .abort s = .next { s with
    accSize := 0#32, accCap := 0#32, accMem := [], frameIdx := 0#32, errCode := 0#4, errInfo := 0#8, errTag := 0#32,
    phase := .idle }

/-- R152, R153 and R154, for STREAM1 to STREAM4 with the bytes of 30_encoding.md R105: in ACCUM the capacity goes to
its first doubling that holds the new size; where that is at most ACC_MAX_CAPACITY the bytes land at ACC_SIZE in their
order, every other byte of ACC_MEM reads as before and nothing but ACC_SIZE and ACC_CAP changes beside them; where it is
not, nothing is appended and the load fails with (OUT_OF_MEMORY, ACC_GROWTH). Outside ACCUM: BUSY or WRONG_PHASE.
The premise that the capacity is not 0 is what R153 says of a held buffer. -/
def Obligations.StreamPushesItsBytes : Prop :=
  ∀ (i : Instr) (bs : List Byte) (s : State), instrPushed i = some bs →
    (s.phase = .accum → 0 < s.accCap.toNat → ∀ k, s.accSize.toNat + bs.length ≤ s.accCap.toNat * 2 ^ k →
      (∀ j < k, s.accCap.toNat * 2 ^ j < s.accSize.toNat + bs.length) →
      (s.accCap.toNat * 2 ^ k ≤ Config.accMaxCapacity →
        ∃ t, exec i s = .next t ∧
          (∀ j < bs.length, t.accMem.read (s.accSize.toNat + j) = bs[j]?) ∧
          (∀ a, (a < s.accSize.toNat ∨ s.accSize.toNat + bs.length ≤ a) → t.accMem.read a = s.accMem.read a) ∧
          t.accSize.toNat = s.accSize.toNat + bs.length ∧ t.accCap.toNat = s.accCap.toNat * 2 ^ k ∧
          t = { s with accMem := t.accMem, accSize := t.accSize, accCap := t.accCap }) ∧
      (Config.accMaxCapacity < s.accCap.toNat * 2 ^ k → exec i s = .next (s.failedWith 1#4 1#8 0#32))) ∧
    (s.busy = true → exec i s = .next (s.refusedWith 3#4)) ∧
    (s.busy = false → s.phase ≠ .accum → exec i s = .next (s.refusedWith 2#4))

/-- R159: two sequences of pushes of the same bytes D into an empty RawBuffer leave the same state, whose ACC_MEM is D,
if |D| is at most the largest doubling of 1,000,000 that ACC_MAX_CAPACITY allows; else both fail with
(OUT_OF_MEMORY, ACC_GROWTH). -/
def Obligations.ChunkingDoesNotMatter : Prop :=
  ∀ (s : State) (js ks : List Instr) (ds es : List (List Byte)) (m : Nat),
    s.phase = .accum → s.accSize = 0#32 → s.accCap = 1000000#32 → s.accMem = [] →
    js.map instrPushed = ds.map some → ks.map instrPushed = es.map some → ds.flatten = es.flatten →
    1000000 * 2 ^ m ≤ Config.accMaxCapacity → Config.accMaxCapacity < 1000000 * 2 ^ (m + 1) →
    (ds.flatten.length ≤ 1000000 * 2 ^ m →
      ∃ t k, execAll js s = .next t ∧ execAll ks s = .next t ∧
        t.accSize.toNat = ds.flatten.length ∧ (∀ a, t.accMem.read a = ds.flatten[a]?) ∧
        t.accCap.toNat = 1000000 * 2 ^ k ∧ ds.flatten.length ≤ 1000000 * 2 ^ k ∧
        (∀ j < k, 1000000 * 2 ^ j < ds.flatten.length) ∧
        t = { s with accMem := t.accMem, accSize := t.accSize, accCap := t.accCap }) ∧
    (1000000 * 2 ^ m < ds.flatten.length →
      ∃ t u, execAll js s = .next t ∧ execAll ks s = .next u ∧
        t.phase = .failed ∧ t.errCode = 1#4 ∧ t.errInfo = 1#8 ∧
        u.phase = .failed ∧ u.errCode = 1#4 ∧ u.errInfo = 1#8)

/-- R160 and R34, of every state that meets the model's invariant: while a buffer is held ACC_CAP is the first doubling of
1,000,000 that holds ACC_SIZE, else it is 0; and ACC_SIZE ≤ ACC_CAP. -/
def Obligations.CapacityIsTheFirstDoublingThatHolds : Prop :=
  ∀ s : State, s.Inv → s.accSize.toNat ≤ s.accCap.toNat ∧
    (s.phase.holdsBuffer = true → ∃ k, s.accCap.toNat = 1000000 * 2 ^ k ∧ s.accSize.toNat ≤ 1000000 * 2 ^ k ∧
      ∀ j < k, 1000000 * 2 ^ j < s.accSize.toNat) ∧
    (s.phase.holdsBuffer = false → s.accCap = 0#32 ∧ s.accSize = 0#32 ∧ s.accMem = [])

/-- 20_memory.md R72 and R86: from one state that holds a buffer to the next, no byte below ACC_SIZE changes and ACC_SIZE
does not fall; once PARSE has begun ACC_MEM does not change at all. -/
def Obligations.AccumulatorIsAppendOnly : Prop :=
  ∀ s t : State, s.phase.holdsBuffer = true → t.phase.holdsBuffer = true → step s = .next t →
    s.accSize.toNat ≤ t.accSize.toNat ∧ (∀ a < s.accSize.toNat, t.accMem.read a = s.accMem.read a) ∧
      (s.busy = true → t.accMem = s.accMem ∧ t.accSize = s.accSize ∧ t.accCap = s.accCap)

/-! ### Formats and volume addresses (spec/30_encoding.md R121, R122, spec/42_volume_address.md) -/

/-- R121 and R122: the twelve supported tags with their units and alpha column; every other 32-bit tag is
unsupported. -/
def Obligations.FormatTableIsTheSpecs : Prop :=
  (∀ tag : Word, Format.ofTag tag = none ↔ tag.toNat ∉ [0, 1, 2, 3, 4, 5, 6, 8, 11, 12, 13, 15]) ∧
  ∀ row ∈ [(0x0#32, FormatUnit.pixel 4, true), (0x1#32, .pixel 4, true), (0x2#32, .pixel 3, false),
      (0x3#32, .pixel 3, false), (0x4#32, .pixel 2, false), (0x5#32, .pixel 1, false), (0x6#32, .pixel 2, true),
      (0x8#32, .pixel 1, true), (0xB#32, .pixel 4, true), (0xC#32, .pixel 4, true), (0xD#32, .block 8, true),
      (0xF#32, .block 16, true)],
    ∃ f, Format.ofTag row.1 = some f ∧ f.unit = row.2.1 ∧ f.hasAlpha = row.2.2

/-- R208 with R200 to R202 and R210, all of VAC_MIPSIZE: BUSY, then UNSUPPORTED_FORMAT, else the exact size for the
geometry in the header latch, below 2^50, so that VOVF is 0. LEVEL is any level, HDR_MIPCOUNT or not. -/
def Obligations.VacMipsizeComputesTheMipSize : Prop :=
  ∀ (s : State) (level : Nat) (dsel : Bool) (depth : Nat),
    depth = (if dsel then 1
      else if s.hdr.verMajor.toNat * 256 + s.hdr.verMinor.toNat < 1794 then 1 else s.hdr.depthRaw.toNat) →
    (s.busy = true → exec (.vacMipsize level dsel) s = .next (s.refusedWith 3#4)) ∧
    (s.busy = false → Format.ofTag s.hdr.format = none →
      exec (.vacMipsize level dsel) s = .next (s.refusedWith 5#4)) ∧
    ∀ f, s.busy = false → Format.ofTag s.hdr.format = some f → ∃ r < 2 ^ 50,
      (∀ bpp, f.unit = .pixel bpp → r =
        max 1 (s.hdr.width.toNat / 2 ^ level) * max 1 (s.hdr.height.toNat / 2 ^ level) * bpp
          * max 1 (depth / 2 ^ level)) ∧
      (∀ bb, f.unit = .block bb → s.edgeCfg.getLsbD 1 = false → r =
        (max 1 (s.hdr.width.toNat / 2 ^ level) + 3) / 4 * ((max 1 (s.hdr.height.toNat / 2 ^ level) + 3) / 4) * bb
          * max 1 (depth / 2 ^ level)) ∧
      (∀ bb, f.unit = .block bb → s.edgeCfg.getLsbD 1 = true → r =
        max 1 (s.hdr.width.toNat / 2 ^ level) / 4 * (max 1 (s.hdr.height.toNat / 2 ^ level) / 4) * bb
          * max 1 (depth / 2 ^ level)) ∧
      exec (.vacMipsize level dsel) s = .next { s with vac.res := BitVec.ofNat 64 r, vovf := false }

/-- R209 with R203, R204 and R210, all of VAC_OFFSET: BUSY, then BAD_OPERAND below level -1, then UNSUPPORTED_FORMAT, else
the exact offset (level -1: the total), below 2^84, stored modulo 2^64 with VOVF. The mip sizes are those of
VAC_MIPSIZE. -/
def Obligations.VacOffsetComputesTheOffset : Prop :=
  ∀ (s : State) (m : Int), m = s.vac.mip.toInt →
    (s.busy = true → exec .vacOffset s = .next (s.refusedWith 3#4)) ∧
    (s.busy = false → m < -1 → exec .vacOffset s = .next (s.refusedWith 4#4)) ∧
    (s.busy = false → -1 ≤ m → Format.ofTag s.hdr.format = none → exec .vacOffset s = .next (s.refusedWith 5#4)) ∧
    ∀ f, s.busy = false → -1 ≤ m → Format.ofTag s.hdr.format = some f → ∃ r < 2 ^ 84,
      (m = -1 → r =
        (∑ l ∈ Finset.range s.hdr.mipcount.toNat, (s.geometry f).mipSize l s.hdr.depth.toNat) * s.hdr.frames.toNat) ∧
      (0 ≤ m → r =
        (∑ l ∈ Finset.Ico (m.toNat + 1) s.hdr.mipcount.toNat, (s.geometry f).mipSize l s.hdr.depth.toNat)
            * s.hdr.frames.toNat * 1
          + (s.geometry f).mipSize m.toNat s.hdr.depth.toNat * (s.vac.frame.toNat * 1 + s.vac.face.toNat)
          + (s.geometry f).mipSize m.toNat 1 * s.vac.slice.toNat) ∧
      exec .vacOffset s = .next { s with vac.res := BitVec.ofNat 64 r, vovf := decide (2 ^ 64 ≤ r) }

/-- R211: mip sizes do not rise with the level; they are constant from the level at which every dimension is 1 (for
block formats under CEIL: width and height at most 4, depth 1); under FLOOR they are 0 once width or height is below
4. -/
def Obligations.MipSizesDoNotRise : Prop :=
  ∀ (g : Geometry) (d level : Nat),
    g.mipSize (level + 1) d ≤ g.mipSize level d ∧
    ((∃ bpp, g.format.unit = .pixel bpp) → mipDim g.width level = 1 → mipDim g.height level = 1 →
      mipDim d level = 1 → ∀ l, level ≤ l → g.mipSize l d = g.mipSize level d) ∧
    ((∃ bb, g.format.unit = .block bb) → g.floor = false → mipDim g.width level ≤ 4 → mipDim g.height level ≤ 4 →
      mipDim d level = 1 → ∀ l, level ≤ l → g.mipSize l d = g.mipSize level d) ∧
    ((∃ bb, g.format.unit = .block bb) → g.floor = true → (mipDim g.width level < 4 ∨ mipDim g.height level < 4) →
      g.mipSize level d = 0)

/-- R212 and R213: consecutive frames lie one top-level volume apart; every slice of every frame at every present level
ends inside the payload; with at least one level and no FLOOR rounding of blocks, what a frame's decode reads is at most
its top-level slice. -/
def Obligations.SlicesLieInsideThePayload : Prop :=
  ∀ g : Geometry,
    (∀ f, g.offset (f + 1) 0 0 0 = g.offset f 0 0 0 + g.mipSize 0 g.depth) ∧
    (∀ m f sl, m < g.mips → f < g.frames → sl < mipDim g.depth m →
      g.offset f 0 sl m + g.mipSize m 1 ≤ g.total) ∧
    (((∃ bpp, g.format.unit = .pixel bpp) ∨ g.floor = false) → g.frameReadBytes ≤ g.mipSize 0 1)

/-! ### Pixels and tiles (spec/43_pixel_formats.md, spec/44_block_decompressor.md) -/

/-- R233 to R236 and R238 to R242: the formats that copy or repeat bytes. Each channel function on any bytes in file order,
and PIX_DECODE with each of them on the bytes of PIX_IN: PIX_OUT is written, packed R, G, B, A from bit 0 up, and
nothing else changes. -/
def Obligations.CopyingFormatsMoveTheirBytes : Prop :=
  (∀ (b0 b1 b2 b3 : Byte) (rest : List Byte),
    pixRgba8888 (b0 :: b1 :: b2 :: b3 :: rest) = ⟨b0, b1, b2, b3⟩ ∧
    pixAbgr8888 (b0 :: b1 :: b2 :: b3 :: rest) = ⟨b3, b2, b1, b0⟩ ∧
    pixRgb888 (b0 :: b1 :: b2 :: rest) = ⟨b0, b1, b2, 255⟩ ∧
    pixBgr888 (b0 :: b1 :: b2 :: rest) = ⟨b2, b1, b0, 255⟩ ∧
    pixI8 (b0 :: rest) = ⟨b0, b0, b0, 255⟩ ∧
    pixIa88 (b0 :: b1 :: rest) = ⟨b0, b0, b0, b1⟩ ∧
    pixA8 (b0 :: rest) = ⟨255, 255, 255, b0⟩ ∧
    pixArgb8888 (b0 :: b1 :: b2 :: b3 :: rest) = ⟨b3, b0, b1, b2⟩ ∧
    pixBgra8888 (b0 :: b1 :: b2 :: b3 :: rest) = ⟨b2, b1, b0, b3⟩) ∧
  ∀ s : State, s.busy = false →
    exec .pixRgba8888 s = .next { s with pixOut := s.pixIn } ∧
    exec .pixAbgr8888 s = .next { s with pixOut := s.pixByte 0 ++ s.pixByte 1 ++ s.pixByte 2 ++ s.pixByte 3 } ∧
    exec .pixRgb888 s = .next { s with pixOut := 255#8 ++ s.pixByte 2 ++ s.pixByte 1 ++ s.pixByte 0 } ∧
    exec .pixBgr888 s = .next { s with pixOut := 255#8 ++ s.pixByte 0 ++ s.pixByte 1 ++ s.pixByte 2 } ∧
    exec .pixI8 s = .next { s with pixOut := 255#8 ++ s.pixByte 0 ++ s.pixByte 0 ++ s.pixByte 0 } ∧
    exec .pixIa88 s = .next { s with pixOut := s.pixByte 1 ++ s.pixByte 0 ++ s.pixByte 0 ++ s.pixByte 0 } ∧
    exec .pixA8 s = .next { s with pixOut := s.pixByte 0 ++ 255#8 ++ 255#8 ++ 255#8 } ∧
    exec .pixArgb8888 s = .next { s with pixOut := s.pixByte 2 ++ s.pixByte 1 ++ s.pixByte 0 ++ s.pixByte 3 } ∧
    exec .pixBgra8888 s = .next { s with pixOut := s.pixByte 3 ++ s.pixByte 0 ++ s.pixByte 1 ++ s.pixByte 2 }

/-- R231 and R237 (and R124's bit positions): RGB565 in numbers. The word is little-endian, its fields are expanded by
replicating their high bits, and PIX_DECODE writes the packed result and nothing else. -/
def Obligations.Rgb565ExpandsItsFields : Prop :=
  (∀ v : BitVec 5, (expand5 v).toNat = v.toNat * 8 + v.toNat / 4) ∧
  (∀ v : BitVec 6, (expand6 v).toNat = v.toNat * 4 + v.toNat / 16) ∧
  (∀ (b0 b1 : Byte) (rest : List Byte) (w : Nat), w = b0.toNat + 256 * b1.toNat →
    (pixRgb565 (b0 :: b1 :: rest)).r.toNat = w / 2048 * 8 + w / 2048 / 4 ∧
    (pixRgb565 (b0 :: b1 :: rest)).g.toNat = w / 32 % 64 * 4 + w / 32 % 64 / 16 ∧
    (pixRgb565 (b0 :: b1 :: rest)).b.toNat = w % 32 * 8 + w % 32 / 4 ∧
    (pixRgb565 (b0 :: b1 :: rest)).a = 255#8) ∧
  ∀ s : State, s.busy = false →
    exec .pixRgb565 s = .next { s with pixOut := (pixRgb565 [s.pixByte 0, s.pixByte 1]).pack }

/-- R271, R272, R274 and R275 over R270's endpoints: every entry of the four-colour and three-colour palettes, and of the
DXT5 alpha palette (eight levels when a0 > a1, six when a0 ≤ a1), in numbers. -/
def Obligations.PaletteEntriesAreTheSpecs : Prop :=
  (∀ c0 c1 : BitVec 16,
    pal4 c0 c1 0 = rgb565 c0 ∧ pal4 c0 c1 1 = rgb565 c1 ∧ pal3 c0 c1 0 = rgb565 c0 ∧ pal3 c0 c1 1 = rgb565 c1 ∧
    (rgb565 c0).a = 255#8 ∧ (pal4 c0 c1 2).a = 255#8 ∧ (pal4 c0 c1 3).a = 255#8 ∧ (pal3 c0 c1 2).a = 255#8 ∧
    pal3 c0 c1 3 = ⟨0, 0, 0, 0⟩ ∧
    ∀ ch ∈ [Pixel.r, Pixel.g, Pixel.b],
      (ch (pal4 c0 c1 2)).toNat = (4 * (ch (rgb565 c0)).toNat + 2 * (ch (rgb565 c1)).toNat + 3) / 6 ∧
      (ch (pal4 c0 c1 3)).toNat = (2 * (ch (rgb565 c0)).toNat + 4 * (ch (rgb565 c1)).toNat + 3) / 6 ∧
      (ch (pal3 c0 c1 2)).toNat = ((ch (rgb565 c0)).toNat + (ch (rgb565 c1)).toNat + 1) / 2) ∧
  ∀ (a0 a1 : Byte) (x y : Nat), x = a0.toNat → y = a1.toNat →
    (x > y → (List.range 8).map (fun i => (alphaPalette a0 a1 (BitVec.ofNat 3 i)).toNat) =
      [x, y, (12 * x + 2 * y + 7) / 14, (10 * x + 4 * y + 7) / 14, (8 * x + 6 * y + 7) / 14,
       (6 * x + 8 * y + 7) / 14, (4 * x + 10 * y + 7) / 14, (2 * x + 12 * y + 7) / 14]) ∧
    (x ≤ y → (List.range 8).map (fun i => (alphaPalette a0 a1 (BitVec.ofNat 3 i)).toNat) =
      [x, y, (8 * x + 2 * y + 5) / 10, (6 * x + 4 * y + 5) / 10, (4 * x + 6 * y + 5) / 10, (2 * x + 8 * y + 5) / 10,
       0, 255])

/-- R282: every interpolation of the palettes lies between its endpoints and is the exact weighted mean rounded half up. -/
def Obligations.InterpolationStaysBetweenEndpoints : Prop :=
  ∀ (x y : Byte) (u v bias div : Nat),
    (u, v, bias, div) ∈ [(4, 2, 3, 6), (2, 4, 3, 6), (1, 1, 1, 2), (12, 2, 7, 14), (10, 4, 7, 14), (8, 6, 7, 14),
      (6, 8, 7, 14), (4, 10, 7, 14), (2, 12, 7, 14), (8, 2, 5, 10), (6, 4, 5, 10), (4, 6, 5, 10), (2, 8, 5, 10)] →
    min x.toNat y.toNat ≤ (blend u v bias div x y).toNat ∧ (blend u v bias div x y).toNat ≤ max x.toNat y.toNat ∧
      2 * div * (blend u v bias div x y).toNat ≤ 2 * (u * x.toNat + v * y.toNat) + div ∧
      2 * (u * x.toNat + v * y.toNat) + div < 2 * div * ((blend u v bias div x y).toNat + 1)

/-- R273 and R281 with 30_encoding.md R125 and R126, for DXT1: BLK_DECODE takes the endpoints, the mode and the sixteen
selectors from the bit fields of BLK_IN0 and BLK_IN1, writes the packed tile to BLK_OUT0 to BLK_OUT15 and changes nothing
else. -/
def Obligations.BlkDecodeDxt1DecodesTheTile : Prop :=
  ∀ (s : State) (c0 c1 : BitVec 16), s.busy = false →
    c0 = s.blkIn[0].extractLsb' 0 16 → c1 = s.blkIn[0].extractLsb' 16 16 →
    ∃ t, exec .blkDxt1 s = .next t ∧ t = { s with blkOut := t.blkOut } ∧
      ∀ k : Fin 16, t.blkOut[k] =
        (if c0.toNat > c1.toNat then pal4 c0 c1 (s.blkIn[1].extractLsb' (2 * k.val) 2)
          else pal3 c0 c1 (s.blkIn[1].extractLsb' (2 * k.val) 2)).pack

/-- R276, R277 and R281 with 30_encoding.md R127 and R128, for DXT5: the alpha endpoints and selectors from BLK_IN0 and
BLK_IN1, the colour endpoints from BLK_IN2 and the colour selectors from BLK_IN3; four-colour mode whatever the order of
the endpoints. -/
def Obligations.BlkDecodeDxt5DecodesTheTile : Prop :=
  ∀ (s : State) (asel : BitVec 48), s.busy = false → asel = s.blkIn[1] ++ s.blkIn[0].extractLsb' 16 16 →
    ∃ t, exec .blkDxt5 s = .next t ∧ t = { s with blkOut := t.blkOut } ∧
      ∀ k : Fin 16, ∃ p, p = pal4 (s.blkIn[2].extractLsb' 0 16) (s.blkIn[2].extractLsb' 16 16)
          (s.blkIn[3].extractLsb' (2 * k.val) 2) ∧
        t.blkOut[k] =
          alphaPalette (s.blkIn[0].extractLsb' 0 8) (s.blkIn[0].extractLsb' 8 8) (asel.extractLsb' (3 * k.val) 3)
            ++ p.b ++ p.g ++ p.r

/-- R283: a DXT1 block with c0 > c1 is opaque whatever its selectors; one with c0 = c1 = 0 is transparent black where the
selector is 3 and opaque black elsewhere. -/
def Obligations.Dxt1OpacityFollowsTheMode : Prop :=
  ∀ (blk : List Byte) (k : Nat), k < 16 →
    ((le16 blk 0).toNat > (le16 blk 2).toNat → (dxt1Pixel blk k).a = 255#8) ∧
    (le16 blk 0 = 0#16 → le16 blk 2 = 0#16 →
      dxt1Pixel blk k =
        if ((le32 blk 4).toNat / 4 ^ k) % 4 = 3 then (⟨0, 0, 0, 0⟩ : Pixel) else ⟨0, 0, 0, 255⟩)

/-! ### The engine's steps (spec/41_header.md, spec/42_volume_address.md R206, spec/45_frame_dispatcher.md) -/

/-- 41_header.md R182: with at least 80 bytes accumulated, the PARSE step answers a next state whose header latch holds
the little-endian fields of the first 80 bytes, whether or not a later check fails the load. -/
def Obligations.ParseLatchesTheHeader : Prop :=
  ∀ (s : State) (h : List Byte), s.phase = .parse → accRead s 0 80 = some h →
    ∃ t, engineStep s = .next t ∧
      t.hdr.sig.toNat = leNat h 0 4 ∧ t.hdr.verMajor.toNat = leNat h 4 4 ∧ t.hdr.verMinor.toNat = leNat h 8 4 ∧
      t.hdr.headersize.toNat = leNat h 12 4 ∧ t.hdr.width.toNat = leNat h 16 2 ∧ t.hdr.height.toNat = leNat h 18 2 ∧
      t.hdr.flags.toNat = leNat h 20 4 ∧ t.hdr.frames.toNat = leNat h 24 2 ∧ t.hdr.firstframe.toNat = leNat h 26 2 ∧
      t.hdr.refl0.toNat = leNat h 32 4 ∧ t.hdr.refl1.toNat = leNat h 36 4 ∧ t.hdr.refl2.toNat = leNat h 40 4 ∧
      t.hdr.bumpscale.toNat = leNat h 48 4 ∧ t.hdr.format.toNat = leNat h 52 4 ∧ t.hdr.mipcount.toNat = leNat h 56 1 ∧
      t.hdr.lrFormat.toNat = leNat h 57 4 ∧ t.hdr.lrWidth.toNat = leNat h 61 1 ∧ t.hdr.lrHeight.toNat = leNat h 62 1 ∧
      t.hdr.depthRaw.toNat = leNat h 63 2

/-- 41_header.md R180, R181, R184, R185, R186, 42_volume_address.md R206 and 60_exceptions.md R357: the checks of the PARSE
step in their order, each with its error code and everything it leaves unchanged, and the state after all of them
pass. -/
def Obligations.ParseChecksInOrder : Prop :=
  (∀ s : State, s.phase = .parse → s.accSize.toNat < 80 → engineStep s = .next (s.failedWith 2#4 1#8 0#32)) ∧
  ∀ (s u : State) (h : List Byte), s.phase = .parse → accRead s 0 80 = some h → u = { s with hdr := latchHeader h } →
    (leNat h 0 4 ≠ 0x00465456 → engineStep s = .next (u.failedWith 2#4 2#8 0#32)) ∧
    (leNat h 0 4 = 0x00465456 → leNat h 24 2 = 0 → engineStep s = .next (u.failedWith 2#4 3#8 0#32)) ∧
    (leNat h 0 4 = 0x00465456 → leNat h 24 2 ≠ 0 → Format.ofTag u.hdr.format = none →
      engineStep s = .next (u.failedWith 3#4 0#8 u.hdr.format)) ∧
    ∀ (f : Format) (total : Nat), leNat h 0 4 = 0x00465456 → leNat h 24 2 ≠ 0 →
      Format.ofTag u.hdr.format = some f →
      total = (∑ l ∈ Finset.range u.hdr.mipcount.toNat, (u.geometry f).mipSize l u.hdr.depth.toNat)
        * u.hdr.frames.toNat →
      (total > s.accSize.toNat → engineStep s = .next (u.failedWith 2#4 4#8 0#32)) ∧
      (total ≤ s.accSize.toNat → engineStep s = .next { u with
        payTotal := BitVec.ofNat 32 total, payStart := BitVec.ofNat 32 (s.accSize.toNat - total), frameIdx := 0#32,
        phase := .frameStart })

/-- 45_frame_dispatcher.md R312 with R313 and R320: the FRAME_START step finishes the load after the last frame, fails it
where the frame reads bytes past ACC_SIZE, and else raises ALLOC; each with everything it leaves unchanged. That a frame
with W = 0 or H = 0, which reads none, passes wherever its source would start follows U6 and decision D39 against R312's
pseudocode and is the model's choice (log entry 30). -/
def Obligations.FrameStartFinishesFailsOrRequests : Prop :=
  ∀ (s : State) (f : Format), s.phase = .frameStart → Format.ofTag s.hdr.format = some f →
    (s.frameIdx.toNat = s.hdr.frames.toNat →
      engineStep s = .next { s with accSize := 0#32, accCap := 0#32, accMem := [], phase := .done }) ∧
    (s.frameIdx.toNat ≠ s.hdr.frames.toNat → s.hdr.width.toNat ≠ 0 → s.hdr.height.toNat ≠ 0 →
      s.source f + (s.geometry f).frameReadBytes > s.accSize.toNat →
      engineStep s = .next (s.failedWith 2#4 5#8 0#32)) ∧
    (s.frameIdx.toNat ≠ s.hdr.frames.toNat →
      (s.hdr.width.toNat = 0 ∨ s.hdr.height.toNat = 0 ∨
        s.source f + (s.geometry f).frameReadBytes ≤ s.accSize.toNat) →
      engineStep s = .next { s with req := s.requestOf 0#64, phase := .allocWait })

/-- 45_frame_dispatcher.md R312 and 42_volume_address.md R213: after a PARSE step that passed (the model's invariant), with
HDR_MIPCOUNT at least 1 and a per-pixel tag or CEIL rounding, the range check does not fail: every frame still to come
gets its ALLOC request. -/
def Obligations.FrameRangeCheckPassesAfterParse : Prop :=
  ∀ (s : State) (f : Format), s.Inv → s.phase = .frameStart → Format.ofTag s.hdr.format = some f →
    s.frameIdx.toNat ≠ s.hdr.frames.toNat → 1 ≤ s.hdr.mipcount.toNat →
    ((∃ bpp, f.unit = .pixel bpp) ∨ s.edgeCfg.getLsbD 1 = false) →
    engineStep s = .next { s with req := s.requestOf 0#64, phase := .allocWait }

/-- 43_pixel_formats.md R232 and 45_frame_dispatcher.md R316: the DECODE step of a per-pixel frame. Channel c of pixel (x, y)
goes to FB_BASE + y*FB_STRIDE + x*FB_NCH + c, from the bpp bytes of pixel y*W + x of the frame; no other byte of memory
changes; then NOTIFY for frame 0 and APPEND for any other is raised; nothing else changes. -/
def Obligations.PixelFrameIsDecodedInPlace : Prop :=
  ∀ (s : State) (f : Format) (bpp : Nat) (pix : List Byte → Pixel), s.Inv → s.phase = .decode →
    Format.ofTag s.hdr.format = some f → f.unit = .pixel bpp → f.pixelFunction = some pix →
    ∃ t, engineStep s = .next t ∧
      (∀ x y c, x < s.hdr.width.toNat → y < s.hdr.height.toNat → c < s.fb.nch.toNat →
        ∃ b, accRead s (s.source f + (y * s.hdr.width.toNat + x) * bpp) bpp = some b ∧
          t.dest.read (s.pixelAddr x y c) = (pix b).channels[c]?) ∧
      (∀ a, (∀ x y c, x < s.hdr.width.toNat → y < s.hdr.height.toNat → c < s.fb.nch.toNat → a ≠ s.pixelAddr x y c) →
        t.dest.read a = s.dest.read a) ∧
      t = { s with
        dest := t.dest
        req := s.requestOf s.fb.base
        phase := if s.frameIdx = 0#32 then .notifyWait else .appendWait }

/-- 44_block_decompressor.md R278 and R279: the DECODE step of a block frame under CLIP. Pixel (x, y) of the image is pixel
4*(y%4) + x%4 of the tile of block (y/4)*ceil(W/4) + x/4; pixels outside the image are discarded; no other byte of memory
changes; then NOTIFY or APPEND is raised; nothing else changes. -/
def Obligations.BlockFrameIsDecodedAndClipped : Prop :=
  ∀ (s : State) (f : Format) (bb : Nat) (dec : List Byte → Nat → Pixel), s.Inv → s.phase = .decode →
    s.edgeCfg.getLsbD 0 = false →
    Format.ofTag s.hdr.format = some f → f.unit = .block bb → f.blockFunction = some dec →
    ∃ t, engineStep s = .next t ∧
      (∀ x y c, x < s.hdr.width.toNat → y < s.hdr.height.toNat → c < 4 →
        ∃ blk, accRead s (s.source f + (y / 4 * ((s.hdr.width.toNat + 3) / 4) + x / 4) * bb) bb = some blk ∧
          t.dest.read (s.pixelAddr x y c) = (dec blk (4 * (y % 4) + x % 4)).channels[c]?) ∧
      (∀ a, (∀ x y c, x < s.hdr.width.toNat → y < s.hdr.height.toNat → c < 4 → a ≠ s.pixelAddr x y c) →
        t.dest.read a = s.dest.read a) ∧
      t = { s with
        dest := t.dest
        req := s.requestOf s.fb.base
        phase := if s.frameIdx = 0#32 then .notifyWait else .appendWait }

/-- 44_block_decompressor.md R278, R280 and 45_frame_dispatcher.md R316: the DECODE step of a block frame under LEGACY.
Every pixel of every tile is written through the stride, in tile order; where all of them end inside the buffer the request
is raised; where one would pass the buffer's end, what was written before it stays, the load fails with DEST_BOUNDS and
no request is raised. -/
def Obligations.LegacyFrameStopsAtTheBufferEnd : Prop :=
  ∀ (s : State) (f : Format) (bb : Nat) (dec : List Byte → Nat → Pixel) (writes : List (Nat × Pixel)),
    s.Inv → s.phase = .decode → s.edgeCfg.getLsbD 0 = true →
    Format.ofTag s.hdr.format = some f → f.unit = .block bb → f.blockFunction = some dec →
    writes = s.tileWrites f bb dec →
    ((∀ w ∈ writes, w.1 + 4 ≤ s.fb.base.toNat + s.fb.size.toNat) →
      engineStep s = .next { s with
        dest := writes.foldl (fun (m : Memory) w => m.writeList w.1 w.2.channels) s.dest
        req := s.requestOf s.fb.base
        phase := if s.frameIdx = 0#32 then .notifyWait else .appendWait }) ∧
    ((∃ w ∈ writes, s.fb.base.toNat + s.fb.size.toNat < w.1 + 4) →
      engineStep s = .next ({ s with
        dest := (writes.takeWhile fun w : Nat × Pixel => decide (w.1 + 4 ≤ s.fb.base.toNat + s.fb.size.toNat)).foldl
          (fun m (w : Nat × Pixel) => m.writeList w.1 w.2.channels) s.dest }.failedWith 4#4 0#8 0#32))

/-- 44_block_decompressor.md R279: where width and height are multiples of 4, CLIP and LEGACY write the same memory. -/
def Obligations.ClipAndLegacyAgreeOnWholeBlocks : Prop :=
  ∀ (s : State) (f : Format) (bb : Nat) (edge : Bool), s.Inv → s.phase = .decode →
    Format.ofTag s.hdr.format = some f → f.unit = .block bb →
    s.hdr.width.toNat % 4 = 0 → s.hdr.height.toNat % 4 = 0 →
    ∃ m, decodeFrame f (s.source f) s = .done m ∧
      decodeFrame f (s.source f) { s with edgeCfg := BitVec.ofBool s.dxtFloor ++ BitVec.ofBool edge } = .done m

/-! ### The host's responses and the errors (spec/45_frame_dispatcher.md R314-R318, spec/60_exceptions.md) -/

/-- R314 and R315: the answers to ALLOC. ACK: the checks in their order with their errors, and the frame-buffer latch when
they pass. FAIL: the load ends with (OUT_OF_MEMORY, ALLOC_REFUSED), FRAME_IDX and all else as they were. With W = 0 or
H = 0 every stride and every size pass the first two checks, as R314's corner case and decision D39 say; that this
holds against R314's pseudocode where H = 0 and W > 0 is the model's choice (log entry 28). -/
def Obligations.AllocAnswersLatchTheBufferOrFail : Prop :=
  ∀ (s : State) (row need : Nat), s.phase = .allocWait →
    row = (if s.hdr.width.toNat = 0 ∨ s.hdr.height.toNat = 0 then 0
      else s.hdr.width.toNat * (if s.hdr.hasAlpha then 4 else 3)) →
    need = (if s.hdr.width.toNat = 0 ∨ s.hdr.height.toNat = 0 then 0
      else (s.hdr.height.toNat - 1) * s.rsp.stride.toNat + row) →
    (s.rsp.stride.toNat < row → exec .rspAckAlloc s = .next (s.failedWith 5#4 1#8 0#32)) ∧
    (row ≤ s.rsp.stride.toNat → s.rsp.size.toNat < need →
      exec .rspAckAlloc s = .next (s.failedWith 5#4 2#8 0#32)) ∧
    (row ≤ s.rsp.stride.toNat → need ≤ s.rsp.size.toNat → s.rsp.base.toNat + s.rsp.size.toNat > 2 ^ 64 →
      exec .rspAckAlloc s = .next (s.failedWith 5#4 3#8 0#32)) ∧
    (row ≤ s.rsp.stride.toNat → need ≤ s.rsp.size.toNat → s.rsp.base.toNat + s.rsp.size.toNat ≤ 2 ^ 64 →
      exec .rspAckAlloc s = .next { s with
        fb := ⟨s.rsp.base, s.rsp.stride, s.rsp.size, if s.hdr.hasAlpha then 4#3 else 3#3⟩
        phase := .decode }) ∧
    exec .rspFailAlloc s = .next (s.failedWith 1#4 2#8 0#32)

/-- R317: ACK in NOTIFY_WAIT raises APPEND. The request registers are rewritten; in every state that meets the invariant
with the same values, so that only PHASE (and with it REQ_TYPE) changes. -/
def Obligations.AckNotifyRaisesAppend : Prop :=
  ∀ s : State, s.phase = .notifyWait →
    exec .rspAckNotify s = .next { s with req := s.requestOf s.fb.base, phase := .appendWait } ∧
    (s.Inv → exec .rspAckNotify s = .next { s with phase := .appendWait } ∧ s.frameIdx = 0#32)

/-- R318: ACK in APPEND_WAIT goes on to the next frame; the frame-buffer latch and the request registers stay. In every
state that meets the invariant FRAME_IDX grows by exactly 1 and does not pass HDR_FRAMES. -/
def Obligations.AckAppendGoesToTheNextFrame : Prop :=
  ∀ s : State, s.phase = .appendWait →
    exec .rspAckAppend s = .next { s with frameIdx := s.frameIdx + 1#32, phase := .frameStart } ∧
    (s.Inv → (s.frameIdx + 1#32).toNat = s.frameIdx.toNat + 1 ∧ s.frameIdx.toNat + 1 ≤ s.hdr.frames.toNat)

/-- 60_exceptions.md R352, R353 and R354: what taking each load error does, over the twelve causes of R353, with all it
leaves unchanged. -/
def Obligations.LoadErrorsAreTakenByTheTable : Prop :=
  ∀ s : State, ∀ row ∈ [(LoadError.accGrowth, 1#4, 1#8), (.allocRefused, 1#4, 2#8), (.shortHeader, 2#4, 1#8),
      (.badSignature, 2#4, 2#8), (.zeroFrames, 2#4, 3#8), (.payloadUnderrun, 2#4, 4#8), (.frameRange, 2#4, 5#8),
      (.unsupportedFormat, 3#4, 0#8), (.destBounds, 4#4, 0#8), (.strideShort, 5#4, 1#8), (.sizeShort, 5#4, 2#8),
      (.addrWrap, 5#4, 3#8)],
    raiseLoadError row.1 s = s.failedWith row.2.1 row.2.2 (if row.2.1 = 3#4 then s.hdr.format else 0#32) ∧
    readOffset 0x010#12 (raiseLoadError row.1 s) = 0#16 ++ row.2.2 ++ 0#4 ++ row.2.1

/-- 60_exceptions.md R360 and R359: in FAILED the error registers, the accumulator and the frame index keep their values
until LOAD_BEGIN, ABORT or reset takes the machine out of FAILED. -/
def Obligations.FailedKeepsTheFirstLoadError : Prop :=
  ∀ s t : State, s.phase = .failed → step s = .next t →
    (t.phase = .failed ∧ t.errCode = s.errCode ∧ t.errInfo = s.errInfo ∧ t.errTag = s.errTag ∧
      t.accSize = s.accSize ∧ t.accCap = s.accCap ∧ t.accMem = s.accMem ∧ t.frameIdx = s.frameIdx) ∨
    ((t.phase = .accum ∨ t.phase = .idle) ∧ t.errCode = 0#4 ∧ t.errInfo = 0#8 ∧ t.errTag = 0#32 ∧
      (s.cause = some .loadBegin ∨ s.cause = some .abort ∨ s.cause = some .reset))

/-! ### The whole machine -/

/-- R390 and R391: the reset value of every register, of `irq` and of ACC_MEM; bits a register does not define read 0 in
every state; and the reset input, at any point of any
load, puts every register into it, makes ACC_MEM unwritten and leaves the destination memory alone. -/
def Obligations.ResetInputResetsEveryRegister : Prop :=
  (∀ r : Reg, readReg r State.reset =
    if r = .id then 0x56544644#32 else if r = .seqParams then 0x00010008#32 else if r = .hdrDepth then 1#32 else 0#32) ∧
  State.reset.irq = false ∧ State.reset.accMem = [] ∧
  (∀ s : State, ∀ row ∈ [(Reg.status, 0xF3F#32), (.cmderr, 0xF#32), (.errcode, 0xFF0F#32), (.ie, 0xF#32),
      (.edgeCfg, 0x3#32), (.hdrWidth, 0xFFFF#32), (.hdrHeight, 0xFFFF#32), (.hdrFrames, 0xFFFF#32),
      (.hdrFirstframe, 0xFFFF#32), (.hdrMipcount, 0xFF#32), (.hdrLrWidth, 0xFF#32), (.hdrLrHeight, 0xFF#32),
      (.hdrDepthRaw, 0xFFFF#32), (.hdrDepth, 0xFFFF#32), (.reqType, 0x3#32), (.reqWidth, 0xFFFF#32),
      (.reqHeight, 0xFFFF#32), (.reqFlags, 0x1#32), (.reqFrame, 0xFFFF#32), (.fbNch, 0x7#32)],
    readReg row.1 s &&& ~~~row.2 = 0#32) ∧
  ∀ (s : State) (rest : List Input), s.inputs = .rst :: rest →
    ∃ t, step s = .next t ∧ (∀ r : Reg, readReg r t = readReg r State.reset) ∧ t.irq = false ∧ t.accMem = [] ∧
      t.dest = s.dest

/-- The model's invariant holds right after reset. -/
def Obligations.InvariantHoldsAtReset : Prop := State.reset.Inv

/-- Every step keeps the model's invariant: canonical memories, ACC_SIZE ≤ ACC_CAP (10_state.md R34), the error registers
within their tables, FRAME_IDX within HDR_FRAMES, and the accepted frame buffer large enough (45_frame_dispatcher.md
R314). -/
def Obligations.EveryStepKeepsTheInvariant : Prop := ∀ s t : State, s.Inv → step s = .next t → t.Inv

/-- 20_memory.md R73, R74 and 45_frame_dispatcher.md R324: from a state that meets the invariant the only fault is that
nothing is enabled: no engine step, and no host transaction but perhaps a poll of STATUS that is not satisfied. So no read
of ACC_MEM is out of range and no write leaves the address space. -/
def Obligations.OnlyAnIdleMachineStops : Prop :=
  ∀ (s : State) (e : Fault), s.Inv → step s = .fault e →
    e = .stuckOnHost ∧ s.phase.engineEnabled = false ∧
      (s.inputs = [] ∨ ∃ mask value rest, s.inputs = .waitStatus mask value :: rest ∧ statusWord s &&& mask ≠ value)

/-- 45_frame_dispatcher.md R310: a step that changes PHASE is a row of the phase table, ABORT, or reset. -/
def Obligations.PhaseMovesOnlyByTheTable : Prop :=
  ∀ s t : State, step s = .next t → t.phase ≠ s.phase →
    ∃ c, s.cause = some c ∧
      ((s.phase, c, t.phase) ∈ phaseTable ∨ ((c = .abort ∨ c = .reset) ∧ t.phase = .idle))

/-- 45_frame_dispatcher.md R322: a load that runs from PARSE to DONE raises ALLOC, NOTIFY and APPEND for frame 0 and ALLOC and
APPEND for every later frame, in frame order and nothing else; one that fails raises that sequence up to the failing
point. -/
def Obligations.RequestsComeInFrameOrder : Prop :=
  ∀ (s t : State) (n : Nat), s.phase = .parse → busyRun n s = some t →
    (t.phase = .done → requestLog n s = expectedRequests t.hdr.frames.toNat) ∧
    (t.phase = .failed → requestLog n s <+: expectedRequests t.hdr.frames.toNat)

/-- 70_reset_and_hazards.md R399: a load whose host answers every request with ACK ends in DONE or FAILED, within a number of
turns bounded by the frames still to come. -/
def Obligations.ServedLoadEnds : Prop :=
  ∀ s : State, s.Inv → s.busy = true →
    ∃ n ≤ s.loadRank, (serve n s).phase = .done ∨ (serve n s).phase = .failed

/-- 10_state.md R26: VOVF changes only when a VAC command runs, or on reset. -/
def Obligations.OnlyVacCommandsWriteVovf : Prop :=
  ∀ s t : State, step s = .next t → t.vovf ≠ s.vovf →
    (∃ rest, s.inputs = .rst :: rest) ∨
    ∃ w rest, s.inputs = .write w :: rest ∧
      (decode s.phase.reqType w = .run .vacOffset ∨
        ∃ level dsel, decode s.phase.reqType w = .run (.vacMipsize level dsel))

/-- 20_memory.md R74: the destination memory changes only by the host's own write or by a DECODE step, and that one changes
only bytes of the frame buffer. -/
def Obligations.OnlyDecodeWritesTheFrameBuffer : Prop :=
  ∀ s t : State, s.Inv → step s = .next t →
    (∃ a b rest, s.inputs = .memWrite a b :: rest) ∨ t.dest = s.dest ∨
    (s.phase = .decode ∧ s.cause = some .engine ∧
      ∀ a, (a < s.fb.base.toNat ∨ s.fb.base.toNat + s.fb.size.toNat ≤ a) → t.dest.read a = s.dest.read a)

/-- 20_memory.md R74: "VTFDEC never reads the destination memory". An engine step taken with any other destination memory
does the same to everything else, and each byte of the destination is, in both runs, either the same written byte or
its own old byte. -/
def Obligations.EngineIgnoresDestinationContents : Prop :=
  ∀ (s t : State) (m : Memory), engineStep s = .next t →
    ∃ m', engineStep { s with dest := m } = .next { t with dest := m' } ∧
      ∀ a, (∃ b, t.dest.read a = some b ∧ m'.read a = some b) ∨
        (t.dest.read a = s.dest.read a ∧ m'.read a = m.read a)

/-- 70_reset_and_hazards.md R395: a host write outside the granted buffer commutes with the DECODE step, so that only accesses
inside the buffer can race. -/
def Obligations.HostWritesOutsideTheBufferCommute : Prop :=
  ∀ (s t : State) (a : BitVec 64) (b : Byte), s.Inv → s.phase = .decode →
    (a.toNat < s.fb.base.toNat ∨ s.fb.base.toNat + s.fb.size.toNat ≤ a.toNat) → engineStep s = .next t →
    engineStep (hostMemWrite a b s) = .next (hostMemWrite a b t)
end

