-- ==== Sys2Proof/Laws/Decode.lean ====
section
/-! SUPPORT. The register map is one to one, and what the decoder answers at each offset. -/

namespace Sys2Proof

/-- Every register is found at its own offset. -/
@[simp] theorem Reg.ofOffset_offset (r : Reg) : Reg.ofOffset r.offset = some r := by
  cases r with
  | blkIn k => revert k; decide
  | blkOut k => revert k; decide
  | _ => decide

/-- A register found at an offset has that offset. -/
theorem Reg.offset_of_ofOffset {offset : BitVec 12} {r : Reg} (h : Reg.ofOffset offset = some r) : r.offset = offset := by
  simpa using List.find?_some h

/-- Registers are aligned. -/
@[simp] theorem Reg.offsetAligned (r : Reg) : offsetAligned r.offset = true := by
  cases r with
  | blkIn k => revert k; decide
  | blkOut k => revert k; decide
  | _ => decide

theorem decode_misaligned (req : ReqType) {t : Txn} (h : offsetAligned t.offset = false) :
    decode req t = .refuse .misaligned := by simp [decode, h]

theorem decode_unmapped (req : ReqType) {t : Txn} (h : offsetAligned t.offset = true)
    (hr : Reg.ofOffset t.offset = none) : decode req t = .unmapped := by simp [decode, h, hr]

@[simp] theorem decode_to_cmd (req : ReqType) (v : Word) : decode req (.to .cmd v) = decodeCommand v := by
  simp [decode, Txn.to]

@[simp] theorem decode_to_rspCtrl (req : ReqType) (v : Word) : decode req (.to .rspCtrl v) = decodeResponse req v := by
  simp [decode, Txn.to]

@[simp] theorem decode_to_stream1 (req : ReqType) (v : Word) :
    decode req (.to .stream1 v) = .run (.stream1 (v.extractLsb' 0 8) (v.extractLsb' 8 24)) := by simp [decode, Txn.to]

@[simp] theorem decode_to_stream2 (req : ReqType) (v : Word) :
    decode req (.to .stream2 v) = .run (.stream2 (v.extractLsb' 0 16) (v.extractLsb' 16 16)) := by
  simp [decode, Txn.to]

@[simp] theorem decode_to_stream3 (req : ReqType) (v : Word) :
    decode req (.to .stream3 v) = .run (.stream3 (v.extractLsb' 0 24) (v.extractLsb' 24 8)) := by
  simp [decode, Txn.to]

@[simp] theorem decode_to_stream4 (req : ReqType) (v : Word) : decode req (.to .stream4 v) = .run (.stream4 v) := by
  simp [decode, Txn.to]

/-- The registers whose writes are instructions (spec/30_encoding.md R100). -/
def Reg.carriesInstr : Reg → Bool
  | .cmd | .stream1 | .stream2 | .stream3 | .stream4 | .rspCtrl => true
  | _ => false

/-- A write to any other register is a plain store. -/
theorem decode_to_store (req : ReqType) {r : Reg} (v : Word) (h : r.carriesInstr = false) :
    decode req (.to r v) = .store r v := by
  simp only [decode, Txn.to, Reg.offsetAligned, Reg.ofOffset_offset, if_true]
  cases r <;> first | rfl | cases h

/-- The opcodes' masks set them apart: no word matches two rows of the opcode map. -/
theorem opcodeMap_apart :
    opcodeMap.Pairwise fun r r' => (r.pattern ^^^ r'.pattern) &&& (r.mask &&& r'.mask) ≠ 0#32 := by decide

end Sys2Proof
end

