-- ==== Sys2Proof/Laws/Memory.lean ====
section
/-! SUPPORT. The laws of memories: reading after writing, the canonical form, consecutive bytes. -/

namespace Sys2Proof.Machine

@[simp] theorem Memory.read_nil (a : Nat) : Memory.read [] a = none := rfl

theorem Memory.read_cons (c : Host.Cell) (m : Memory) (a : Nat) :
    Memory.read (c :: m) a = if c.1 = a then some c.2 else Memory.read m a := rfl

@[simp] theorem Memory.read_write_same (m : Memory) (a : Nat) (b : Byte) : (Memory.write a b m).read a = some b := by
  induction m with
  | nil => simp [Memory.write, Memory.read_cons]
  | cons c rest ih =>
    simp only [Memory.write]
    split
    · simp [Memory.read_cons]
    · split
      · simp [Memory.read_cons]
      · rename_i h1 h2
        rw [Memory.read_cons, if_neg (fun h => h2 h.symm), ih]

theorem Memory.read_write_other (m : Memory) {a x : Nat} (b : Byte) (h : x ≠ a) :
    (Memory.write a b m).read x = m.read x := by
  induction m with
  | nil => simp [Memory.write, Memory.read_cons, Ne.symm h]
  | cons c rest ih =>
    simp only [Memory.write]
    split
    · rw [Memory.read_cons, if_neg (Ne.symm h)]
    · split
      · rename_i h2
        rw [Memory.read_cons, if_neg (Ne.symm h), Memory.read_cons, if_neg (h2 ▸ Ne.symm h)]
      · rw [Memory.read_cons, Memory.read_cons, ih]

theorem Memory.read_write (m : Memory) (a x : Nat) (b : Byte) :
    (Memory.write a b m).read x = if x = a then some b else m.read x := by
  split
  · next h => rw [h, Memory.read_write_same]
  · next h => rw [Memory.read_write_other m b h]

/-- The cells of a memory after a write are its old cells and the new one. -/
theorem Memory.mem_write {m : Memory} {a : Nat} {b : Byte} {c : Host.Cell} (h : c ∈ Memory.write a b m) :
    c = (a, b) ∨ c ∈ m := by
  induction m with
  | nil => simpa [Memory.write] using h
  | cons d rest ih =>
    simp only [Memory.write] at h
    split at h
    · simpa using h
    · split at h
      · rcases List.mem_cons.mp h with rfl | h
        · exact .inl rfl
        · exact .inr (List.mem_cons_of_mem _ h)
      · rcases List.mem_cons.mp h with rfl | h
        · exact .inr (List.mem_cons_self ..)
        · exact (ih h).imp_right (List.mem_cons_of_mem _)

theorem Memory.wf_nil : Memory.wf [] := List.Pairwise.nil

/-- A write keeps the canonical form. -/
theorem Memory.wf_write {m : Memory} (h : m.wf) (a : Nat) (b : Byte) : (Memory.write a b m).wf := by
  induction m with
  | nil => simp [Memory.wf, Memory.write]
  | cons c rest ih =>
    have hc := List.pairwise_cons.mp h
    simp only [Memory.write]
    split
    · next hlt =>
      refine List.pairwise_cons.mpr ⟨fun d hd => ?_, h⟩
      rcases List.mem_cons.mp hd with rfl | hd
      · exact hlt
      · exact Nat.lt_trans hlt (hc.1 d hd)
    · split
      · next heq => exact List.pairwise_cons.mpr ⟨fun d hd => heq ▸ hc.1 d hd, hc.2⟩
      · next h1 h2 =>
        refine List.pairwise_cons.mpr ⟨fun d hd => ?_, ih hc.2⟩
        rcases Memory.mem_write hd with rfl | hd
        · exact Nat.lt_of_le_of_ne (Nat.le_of_not_lt h1) (Ne.symm h2)
        · exact hc.1 d hd

/-- Consecutive writes keep the canonical form. -/
theorem Memory.wf_writeList {m : Memory} (h : m.wf) (a : Nat) (bs : List Byte) : (Memory.writeList a bs m).wf := by
  induction bs generalizing a m with
  | nil => exact h
  | cons b rest ih => exact ih (Memory.wf_write h a b) (a + 1)

theorem Memory.read_writeList_out (m : Memory) (bs : List Byte) {a x : Nat} (h : x < a ∨ a + bs.length ≤ x) :
    (Memory.writeList a bs m).read x = m.read x := by
  induction bs generalizing a m with
  | nil => rfl
  | cons b rest ih =>
    simp only [List.length_cons] at h
    rw [Memory.writeList, ih _ (by omega), Memory.read_write_other _ _ (by omega)]

theorem Memory.read_writeList_in (m : Memory) (bs : List Byte) {a k : Nat} (h : k < bs.length) :
    (Memory.writeList a bs m).read (a + k) = bs[k]? := by
  induction bs generalizing a k m with
  | nil => simp at h
  | cons b rest ih =>
    rw [Memory.writeList]
    cases k with
    | zero => rw [Memory.read_writeList_out _ _ (by omega)]; simp
    | succ j =>
      have := ih (Memory.write a b m) (a := a + 1) (k := j) (by simpa using h)
      rw [show a + (j + 1) = a + 1 + j by omega, this]; simp

theorem Memory.writeList_append (m : Memory) (bs cs : List Byte) (a : Nat) :
    Memory.writeList a (bs ++ cs) m = Memory.writeList (a + bs.length) cs (Memory.writeList a bs m) := by
  induction bs generalizing a m with
  | nil => rfl
  | cons b rest ih => simp only [List.cons_append, Memory.writeList, ih, List.length_cons]; congr 1; omega

/-- A byte is read exactly where a cell is listed. -/
theorem Memory.read_isSome (m : Memory) (a : Nat) : (m.read a).isSome = true ↔ a ∈ m.map (fun c => c.1) := by
  induction m with
  | nil => simp
  | cons c rest ih =>
    rw [Memory.read_cons]
    split
    · next h => simp [h]
    · next h => rw [ih]; simp [Ne.symm h]

theorem Memory.read_eq_none_of_lt {m : Memory} {a : Nat} (h : ∀ c ∈ m, a < c.1) : m.read a = none := by
  induction m with
  | nil => rfl
  | cons c rest ih =>
    rw [Memory.read_cons, if_neg (Nat.ne_of_gt (h c (List.mem_cons_self ..))),
      ih fun d hd => h d (List.mem_cons_of_mem _ hd)]

/-- Two memories in canonical form that read alike are the same memory. -/
theorem Memory.ext_of_wf {m n : Memory} (hm : m.wf) (hn : n.wf) (h : ∀ a, m.read a = n.read a) : m = n := by
  induction m generalizing n with
  | nil =>
    cases n with
    | nil => rfl
    | cons c rest => have := h c.1; simp [Memory.read_cons] at this
  | cons c rest ih =>
    have hc := List.pairwise_cons.mp hm
    cases n with
    | nil => have := h c.1; simp [Memory.read_cons] at this
    | cons d rest' =>
      have hd := List.pairwise_cons.mp hn
      have hcd : c.1 = d.1 := by
        rcases Nat.lt_trichotomy c.1 d.1 with hlt | heq | hgt
        · have := h c.1
          rw [Memory.read_cons, if_pos rfl, Memory.read_cons, if_neg (Nat.ne_of_gt hlt),
            Memory.read_eq_none_of_lt fun e he => Nat.lt_trans hlt (hd.1 e he)] at this
          cases this
        · exact heq
        · have := h d.1
          rw [Memory.read_cons, if_neg (Nat.ne_of_gt hgt), Memory.read_cons, if_pos rfl,
            Memory.read_eq_none_of_lt fun e he => Nat.lt_trans hgt (hc.1 e he)] at this
          cases this
      have hval : c = d := by
        have := h c.1
        rw [Memory.read_cons, if_pos rfl, Memory.read_cons, if_pos hcd.symm] at this
        exact Prod.ext hcd (Option.some.inj this)
      subst hval
      congr 1
      refine ih hc.2 hd.2 fun a => ?_
      by_cases ha : a = c.1
      · rw [ha, Memory.read_eq_none_of_lt hc.1, Memory.read_eq_none_of_lt hd.1]
      · have := h a
        rwa [Memory.read_cons, if_neg (Ne.symm ha), Memory.read_cons, if_neg (Ne.symm ha)] at this

/-- Writing beyond the last listed address adds the cell at the end. -/
theorem Memory.write_append {m : Memory} {a : Nat} (h : ∀ c ∈ m, c.1 < a) (b : Byte) :
    Memory.write a b m = m ++ [(a, b)] := by
  induction m with
  | nil => rfl
  | cons c rest ih =>
    have hc := h c (List.mem_cons_self ..)
    rw [Memory.write, if_neg (by omega), if_neg (by omega), ih fun d hd => h d (List.mem_cons_of_mem _ hd)]
    rfl

/-- Pushing bytes at the end of a memory that lists the offsets below `n` lists them all. -/
theorem Memory.writeList_listed {m : Memory} {n : Nat} (h : m.map (fun c => c.1) = List.range n) (bs : List Byte) :
    (Memory.writeList n bs m).map (fun c => c.1) = List.range (n + bs.length) := by
  induction bs generalizing n m with
  | nil => exact h
  | cons b rest ih =>
    have hlt : ∀ c ∈ m, c.1 < n := fun c hc =>
      List.mem_range.mp (h ▸ List.mem_map_of_mem (f := fun c : Host.Cell => c.1) hc)
    rw [Memory.writeList, ih (n := n + 1) (by rw [Memory.write_append hlt, List.map_append, h, List.range_succ]; rfl),
      List.length_cons]
    congr 1; omega

/-- `readList` answers exactly when every byte of the range has been written, with those bytes. -/
theorem Memory.readList_eq_some (m : Memory) (a n : Nat) (bs : List Byte) :
    m.readList a n = some bs ↔ bs.length = n ∧ ∀ k < n, m.read (a + k) = bs[k]? := by
  induction n generalizing a bs with
  | zero => cases bs <;> simp [Memory.readList]
  | succ n ih =>
    rw [Memory.readList]
    cases hr : m.read a with
    | none =>
      simp only [reduceCtorEq, false_iff, not_and]
      intro hl h
      have := h 0 (Nat.succ_pos n)
      rw [Nat.add_zero, hr, List.getElem?_eq_getElem (by omega)] at this
      cases this
    | some b =>
      simp only [Option.map_eq_some_iff]
      constructor
      · rintro ⟨cs, hcs, rfl⟩
        obtain ⟨hl, h⟩ := (ih (a + 1) cs).mp hcs
        refine ⟨by simp [hl], fun k hk => ?_⟩
        cases k with
        | zero => simp [hr]
        | succ j => rw [show a + (j + 1) = a + 1 + j by omega, h j (by omega)]; simp
      · rintro ⟨hl, h⟩
        cases bs with
        | nil => simp at hl
        | cons c cs =>
          have h0 := h 0 (Nat.succ_pos n)
          simp only [Nat.add_zero, hr, List.getElem?_cons_zero, Option.some.injEq] at h0
          refine ⟨cs, (ih (a + 1) cs).mpr ⟨by simpa using hl, fun k hk => ?_⟩, by rw [h0]⟩
          have := h (k + 1) (by omega)
          rw [show a + (k + 1) = a + 1 + k by omega] at this
          simpa using this

/-- Where every byte of the range has been written, `readList` answers. -/
theorem Memory.readList_isSome {m : Memory} {a n : Nat} (h : ∀ k < n, (m.read (a + k)).isSome = true) :
    ∃ bs, m.readList a n = some bs := by
  induction n generalizing a with
  | zero => exact ⟨[], rfl⟩
  | succ n ih =>
    obtain ⟨b, hb⟩ := Option.isSome_iff_exists.mp (h 0 (Nat.succ_pos n))
    obtain ⟨bs, hbs⟩ := ih (a := a + 1) fun k hk => by
      rw [show a + 1 + k = a + (k + 1) by omega]; exact h (k + 1) (by omega)
    exact ⟨b :: bs, by rw [Memory.readList, show m.read a = some b from hb]; simp [hbs]⟩

end Sys2Proof.Machine
end

