-- ==== Sys2Proof/Laws/State.lean ====
section
/-! SUPPORT. What each shared update of the state does to each field; all hold by definition. -/

namespace Sys2Proof.Machine

@[simp] theorem release_phase (s : State) : (release s).phase = s.phase := rfl
@[simp] theorem release_cerr (s : State) : (release s).cerr = s.cerr := rfl
@[simp] theorem release_vovf (s : State) : (release s).vovf = s.vovf := rfl
@[simp] theorem release_cmdErr (s : State) : (release s).cmdErr = s.cmdErr := rfl
@[simp] theorem release_errCode (s : State) : (release s).errCode = s.errCode := rfl
@[simp] theorem release_errInfo (s : State) : (release s).errInfo = s.errInfo := rfl
@[simp] theorem release_errTag (s : State) : (release s).errTag = s.errTag := rfl
@[simp] theorem release_ie (s : State) : (release s).ie = s.ie := rfl
@[simp] theorem release_edgeCfg (s : State) : (release s).edgeCfg = s.edgeCfg := rfl
@[simp] theorem release_seqHandle (s : State) : (release s).seqHandle = s.seqHandle := rfl
@[simp] theorem release_accSize (s : State) : (release s).accSize = 0 := rfl
@[simp] theorem release_accCap (s : State) : (release s).accCap = 0 := rfl
@[simp] theorem release_accMem (s : State) : (release s).accMem = [] := rfl
@[simp] theorem release_hdr (s : State) : (release s).hdr = s.hdr := rfl
@[simp] theorem release_payStart (s : State) : (release s).payStart = s.payStart := rfl
@[simp] theorem release_payTotal (s : State) : (release s).payTotal = s.payTotal := rfl
@[simp] theorem release_frameIdx (s : State) : (release s).frameIdx = s.frameIdx := rfl
@[simp] theorem release_vac (s : State) : (release s).vac = s.vac := rfl
@[simp] theorem release_blkIn (s : State) : (release s).blkIn = s.blkIn := rfl
@[simp] theorem release_blkOut (s : State) : (release s).blkOut = s.blkOut := rfl
@[simp] theorem release_pixIn (s : State) : (release s).pixIn = s.pixIn := rfl
@[simp] theorem release_pixOut (s : State) : (release s).pixOut = s.pixOut := rfl
@[simp] theorem release_req (s : State) : (release s).req = s.req := rfl
@[simp] theorem release_rsp (s : State) : (release s).rsp = s.rsp := rfl
@[simp] theorem release_fb (s : State) : (release s).fb = s.fb := rfl
@[simp] theorem release_dest (s : State) : (release s).dest = s.dest := rfl
@[simp] theorem release_inputs (s : State) : (release s).inputs = s.inputs := rfl
@[simp] theorem release_readData (s : State) : (release s).readData = s.readData := rfl

@[simp] theorem raiseLoadError_phase (e : LoadError) (s : State) : (raiseLoadError e s).phase = .failed := rfl
@[simp] theorem raiseLoadError_cerr (e : LoadError) (s : State) : (raiseLoadError e s).cerr = s.cerr := rfl
@[simp] theorem raiseLoadError_vovf (e : LoadError) (s : State) : (raiseLoadError e s).vovf = s.vovf := rfl
@[simp] theorem raiseLoadError_cmdErr (e : LoadError) (s : State) : (raiseLoadError e s).cmdErr = s.cmdErr := rfl
@[simp] theorem raiseLoadError_errCode (e : LoadError) (s : State) : (raiseLoadError e s).errCode = e.code := rfl
@[simp] theorem raiseLoadError_errInfo (e : LoadError) (s : State) : (raiseLoadError e s).errInfo = e.info := rfl
@[simp] theorem raiseLoadError_errTag (e : LoadError) (s : State) : (raiseLoadError e s).errTag = if e = .unsupportedFormat then s.hdr.format else 0 := rfl
@[simp] theorem raiseLoadError_ie (e : LoadError) (s : State) : (raiseLoadError e s).ie = s.ie := rfl
@[simp] theorem raiseLoadError_edgeCfg (e : LoadError) (s : State) : (raiseLoadError e s).edgeCfg = s.edgeCfg := rfl
@[simp] theorem raiseLoadError_seqHandle (e : LoadError) (s : State) : (raiseLoadError e s).seqHandle = s.seqHandle := rfl
@[simp] theorem raiseLoadError_accSize (e : LoadError) (s : State) : (raiseLoadError e s).accSize = 0 := rfl
@[simp] theorem raiseLoadError_accCap (e : LoadError) (s : State) : (raiseLoadError e s).accCap = 0 := rfl
@[simp] theorem raiseLoadError_accMem (e : LoadError) (s : State) : (raiseLoadError e s).accMem = [] := rfl
@[simp] theorem raiseLoadError_hdr (e : LoadError) (s : State) : (raiseLoadError e s).hdr = s.hdr := rfl
@[simp] theorem raiseLoadError_payStart (e : LoadError) (s : State) : (raiseLoadError e s).payStart = s.payStart := rfl
@[simp] theorem raiseLoadError_payTotal (e : LoadError) (s : State) : (raiseLoadError e s).payTotal = s.payTotal := rfl
@[simp] theorem raiseLoadError_frameIdx (e : LoadError) (s : State) : (raiseLoadError e s).frameIdx = s.frameIdx := rfl
@[simp] theorem raiseLoadError_vac (e : LoadError) (s : State) : (raiseLoadError e s).vac = s.vac := rfl
@[simp] theorem raiseLoadError_blkIn (e : LoadError) (s : State) : (raiseLoadError e s).blkIn = s.blkIn := rfl
@[simp] theorem raiseLoadError_blkOut (e : LoadError) (s : State) : (raiseLoadError e s).blkOut = s.blkOut := rfl
@[simp] theorem raiseLoadError_pixIn (e : LoadError) (s : State) : (raiseLoadError e s).pixIn = s.pixIn := rfl
@[simp] theorem raiseLoadError_pixOut (e : LoadError) (s : State) : (raiseLoadError e s).pixOut = s.pixOut := rfl
@[simp] theorem raiseLoadError_req (e : LoadError) (s : State) : (raiseLoadError e s).req = s.req := rfl
@[simp] theorem raiseLoadError_rsp (e : LoadError) (s : State) : (raiseLoadError e s).rsp = s.rsp := rfl
@[simp] theorem raiseLoadError_fb (e : LoadError) (s : State) : (raiseLoadError e s).fb = s.fb := rfl
@[simp] theorem raiseLoadError_dest (e : LoadError) (s : State) : (raiseLoadError e s).dest = s.dest := rfl
@[simp] theorem raiseLoadError_inputs (e : LoadError) (s : State) : (raiseLoadError e s).inputs = s.inputs := rfl
@[simp] theorem raiseLoadError_readData (e : LoadError) (s : State) : (raiseLoadError e s).readData = s.readData := rfl

@[simp] theorem raiseCmdError_phase (e : CmdError) (s : State) : (raiseCmdError e s).phase = s.phase := rfl
@[simp] theorem raiseCmdError_cerr (e : CmdError) (s : State) : (raiseCmdError e s).cerr = true := rfl
@[simp] theorem raiseCmdError_vovf (e : CmdError) (s : State) : (raiseCmdError e s).vovf = s.vovf := rfl
@[simp] theorem raiseCmdError_cmdErr (e : CmdError) (s : State) : (raiseCmdError e s).cmdErr = e.code := rfl
@[simp] theorem raiseCmdError_errCode (e : CmdError) (s : State) : (raiseCmdError e s).errCode = s.errCode := rfl
@[simp] theorem raiseCmdError_errInfo (e : CmdError) (s : State) : (raiseCmdError e s).errInfo = s.errInfo := rfl
@[simp] theorem raiseCmdError_errTag (e : CmdError) (s : State) : (raiseCmdError e s).errTag = s.errTag := rfl
@[simp] theorem raiseCmdError_ie (e : CmdError) (s : State) : (raiseCmdError e s).ie = s.ie := rfl
@[simp] theorem raiseCmdError_edgeCfg (e : CmdError) (s : State) : (raiseCmdError e s).edgeCfg = s.edgeCfg := rfl
@[simp] theorem raiseCmdError_seqHandle (e : CmdError) (s : State) : (raiseCmdError e s).seqHandle = s.seqHandle := rfl
@[simp] theorem raiseCmdError_accSize (e : CmdError) (s : State) : (raiseCmdError e s).accSize = s.accSize := rfl
@[simp] theorem raiseCmdError_accCap (e : CmdError) (s : State) : (raiseCmdError e s).accCap = s.accCap := rfl
@[simp] theorem raiseCmdError_accMem (e : CmdError) (s : State) : (raiseCmdError e s).accMem = s.accMem := rfl
@[simp] theorem raiseCmdError_hdr (e : CmdError) (s : State) : (raiseCmdError e s).hdr = s.hdr := rfl
@[simp] theorem raiseCmdError_payStart (e : CmdError) (s : State) : (raiseCmdError e s).payStart = s.payStart := rfl
@[simp] theorem raiseCmdError_payTotal (e : CmdError) (s : State) : (raiseCmdError e s).payTotal = s.payTotal := rfl
@[simp] theorem raiseCmdError_frameIdx (e : CmdError) (s : State) : (raiseCmdError e s).frameIdx = s.frameIdx := rfl
@[simp] theorem raiseCmdError_vac (e : CmdError) (s : State) : (raiseCmdError e s).vac = s.vac := rfl
@[simp] theorem raiseCmdError_blkIn (e : CmdError) (s : State) : (raiseCmdError e s).blkIn = s.blkIn := rfl
@[simp] theorem raiseCmdError_blkOut (e : CmdError) (s : State) : (raiseCmdError e s).blkOut = s.blkOut := rfl
@[simp] theorem raiseCmdError_pixIn (e : CmdError) (s : State) : (raiseCmdError e s).pixIn = s.pixIn := rfl
@[simp] theorem raiseCmdError_pixOut (e : CmdError) (s : State) : (raiseCmdError e s).pixOut = s.pixOut := rfl
@[simp] theorem raiseCmdError_req (e : CmdError) (s : State) : (raiseCmdError e s).req = s.req := rfl
@[simp] theorem raiseCmdError_rsp (e : CmdError) (s : State) : (raiseCmdError e s).rsp = s.rsp := rfl
@[simp] theorem raiseCmdError_fb (e : CmdError) (s : State) : (raiseCmdError e s).fb = s.fb := rfl
@[simp] theorem raiseCmdError_dest (e : CmdError) (s : State) : (raiseCmdError e s).dest = s.dest := rfl
@[simp] theorem raiseCmdError_inputs (e : CmdError) (s : State) : (raiseCmdError e s).inputs = s.inputs := rfl
@[simp] theorem raiseCmdError_readData (e : CmdError) (s : State) : (raiseCmdError e s).readData = s.readData := rfl

@[simp] theorem clearCmdError_phase (s : State) : (clearCmdError s).phase = s.phase := rfl
@[simp] theorem clearCmdError_cerr (s : State) : (clearCmdError s).cerr = false := rfl
@[simp] theorem clearCmdError_vovf (s : State) : (clearCmdError s).vovf = s.vovf := rfl
@[simp] theorem clearCmdError_cmdErr (s : State) : (clearCmdError s).cmdErr = 0 := rfl
@[simp] theorem clearCmdError_errCode (s : State) : (clearCmdError s).errCode = s.errCode := rfl
@[simp] theorem clearCmdError_errInfo (s : State) : (clearCmdError s).errInfo = s.errInfo := rfl
@[simp] theorem clearCmdError_errTag (s : State) : (clearCmdError s).errTag = s.errTag := rfl
@[simp] theorem clearCmdError_ie (s : State) : (clearCmdError s).ie = s.ie := rfl
@[simp] theorem clearCmdError_edgeCfg (s : State) : (clearCmdError s).edgeCfg = s.edgeCfg := rfl
@[simp] theorem clearCmdError_seqHandle (s : State) : (clearCmdError s).seqHandle = s.seqHandle := rfl
@[simp] theorem clearCmdError_accSize (s : State) : (clearCmdError s).accSize = s.accSize := rfl
@[simp] theorem clearCmdError_accCap (s : State) : (clearCmdError s).accCap = s.accCap := rfl
@[simp] theorem clearCmdError_accMem (s : State) : (clearCmdError s).accMem = s.accMem := rfl
@[simp] theorem clearCmdError_hdr (s : State) : (clearCmdError s).hdr = s.hdr := rfl
@[simp] theorem clearCmdError_payStart (s : State) : (clearCmdError s).payStart = s.payStart := rfl
@[simp] theorem clearCmdError_payTotal (s : State) : (clearCmdError s).payTotal = s.payTotal := rfl
@[simp] theorem clearCmdError_frameIdx (s : State) : (clearCmdError s).frameIdx = s.frameIdx := rfl
@[simp] theorem clearCmdError_vac (s : State) : (clearCmdError s).vac = s.vac := rfl
@[simp] theorem clearCmdError_blkIn (s : State) : (clearCmdError s).blkIn = s.blkIn := rfl
@[simp] theorem clearCmdError_blkOut (s : State) : (clearCmdError s).blkOut = s.blkOut := rfl
@[simp] theorem clearCmdError_pixIn (s : State) : (clearCmdError s).pixIn = s.pixIn := rfl
@[simp] theorem clearCmdError_pixOut (s : State) : (clearCmdError s).pixOut = s.pixOut := rfl
@[simp] theorem clearCmdError_req (s : State) : (clearCmdError s).req = s.req := rfl
@[simp] theorem clearCmdError_rsp (s : State) : (clearCmdError s).rsp = s.rsp := rfl
@[simp] theorem clearCmdError_fb (s : State) : (clearCmdError s).fb = s.fb := rfl
@[simp] theorem clearCmdError_dest (s : State) : (clearCmdError s).dest = s.dest := rfl
@[simp] theorem clearCmdError_inputs (s : State) : (clearCmdError s).inputs = s.inputs := rfl
@[simp] theorem clearCmdError_readData (s : State) : (clearCmdError s).readData = s.readData := rfl

@[simp] theorem beginLoad_phase (s : State) : (beginLoad s).phase = .accum := rfl
@[simp] theorem beginLoad_cerr (s : State) : (beginLoad s).cerr = s.cerr := rfl
@[simp] theorem beginLoad_vovf (s : State) : (beginLoad s).vovf = s.vovf := rfl
@[simp] theorem beginLoad_cmdErr (s : State) : (beginLoad s).cmdErr = s.cmdErr := rfl
@[simp] theorem beginLoad_errCode (s : State) : (beginLoad s).errCode = 0 := rfl
@[simp] theorem beginLoad_errInfo (s : State) : (beginLoad s).errInfo = 0 := rfl
@[simp] theorem beginLoad_errTag (s : State) : (beginLoad s).errTag = 0 := rfl
@[simp] theorem beginLoad_ie (s : State) : (beginLoad s).ie = s.ie := rfl
@[simp] theorem beginLoad_edgeCfg (s : State) : (beginLoad s).edgeCfg = s.edgeCfg := rfl
@[simp] theorem beginLoad_seqHandle (s : State) : (beginLoad s).seqHandle = s.seqHandle := rfl
@[simp] theorem beginLoad_accSize (s : State) : (beginLoad s).accSize = 0 := rfl
@[simp] theorem beginLoad_accCap (s : State) : (beginLoad s).accCap = BitVec.ofNat 32 Config.accInitCapacity := rfl
@[simp] theorem beginLoad_accMem (s : State) : (beginLoad s).accMem = [] := rfl
@[simp] theorem beginLoad_hdr (s : State) : (beginLoad s).hdr = s.hdr := rfl
@[simp] theorem beginLoad_payStart (s : State) : (beginLoad s).payStart = 0 := rfl
@[simp] theorem beginLoad_payTotal (s : State) : (beginLoad s).payTotal = 0 := rfl
@[simp] theorem beginLoad_frameIdx (s : State) : (beginLoad s).frameIdx = 0 := rfl
@[simp] theorem beginLoad_vac (s : State) : (beginLoad s).vac = s.vac := rfl
@[simp] theorem beginLoad_blkIn (s : State) : (beginLoad s).blkIn = s.blkIn := rfl
@[simp] theorem beginLoad_blkOut (s : State) : (beginLoad s).blkOut = s.blkOut := rfl
@[simp] theorem beginLoad_pixIn (s : State) : (beginLoad s).pixIn = s.pixIn := rfl
@[simp] theorem beginLoad_pixOut (s : State) : (beginLoad s).pixOut = s.pixOut := rfl
@[simp] theorem beginLoad_req (s : State) : (beginLoad s).req = ⟨0, 0, false, 0, 0, 0⟩ := rfl
@[simp] theorem beginLoad_rsp (s : State) : (beginLoad s).rsp = s.rsp := rfl
@[simp] theorem beginLoad_fb (s : State) : (beginLoad s).fb = ⟨0, 0, 0, 0⟩ := rfl
@[simp] theorem beginLoad_dest (s : State) : (beginLoad s).dest = s.dest := rfl
@[simp] theorem beginLoad_inputs (s : State) : (beginLoad s).inputs = s.inputs := rfl
@[simp] theorem beginLoad_readData (s : State) : (beginLoad s).readData = s.readData := rfl

@[simp] theorem abortLoad_phase (s : State) : (abortLoad s).phase = .idle := rfl
@[simp] theorem abortLoad_cerr (s : State) : (abortLoad s).cerr = s.cerr := rfl
@[simp] theorem abortLoad_vovf (s : State) : (abortLoad s).vovf = s.vovf := rfl
@[simp] theorem abortLoad_cmdErr (s : State) : (abortLoad s).cmdErr = s.cmdErr := rfl
@[simp] theorem abortLoad_errCode (s : State) : (abortLoad s).errCode = 0 := rfl
@[simp] theorem abortLoad_errInfo (s : State) : (abortLoad s).errInfo = 0 := rfl
@[simp] theorem abortLoad_errTag (s : State) : (abortLoad s).errTag = 0 := rfl
@[simp] theorem abortLoad_ie (s : State) : (abortLoad s).ie = s.ie := rfl
@[simp] theorem abortLoad_edgeCfg (s : State) : (abortLoad s).edgeCfg = s.edgeCfg := rfl
@[simp] theorem abortLoad_seqHandle (s : State) : (abortLoad s).seqHandle = s.seqHandle := rfl
@[simp] theorem abortLoad_accSize (s : State) : (abortLoad s).accSize = 0 := rfl
@[simp] theorem abortLoad_accCap (s : State) : (abortLoad s).accCap = 0 := rfl
@[simp] theorem abortLoad_accMem (s : State) : (abortLoad s).accMem = [] := rfl
@[simp] theorem abortLoad_hdr (s : State) : (abortLoad s).hdr = s.hdr := rfl
@[simp] theorem abortLoad_payStart (s : State) : (abortLoad s).payStart = s.payStart := rfl
@[simp] theorem abortLoad_payTotal (s : State) : (abortLoad s).payTotal = s.payTotal := rfl
@[simp] theorem abortLoad_frameIdx (s : State) : (abortLoad s).frameIdx = 0 := rfl
@[simp] theorem abortLoad_vac (s : State) : (abortLoad s).vac = s.vac := rfl
@[simp] theorem abortLoad_blkIn (s : State) : (abortLoad s).blkIn = s.blkIn := rfl
@[simp] theorem abortLoad_blkOut (s : State) : (abortLoad s).blkOut = s.blkOut := rfl
@[simp] theorem abortLoad_pixIn (s : State) : (abortLoad s).pixIn = s.pixIn := rfl
@[simp] theorem abortLoad_pixOut (s : State) : (abortLoad s).pixOut = s.pixOut := rfl
@[simp] theorem abortLoad_req (s : State) : (abortLoad s).req = s.req := rfl
@[simp] theorem abortLoad_rsp (s : State) : (abortLoad s).rsp = s.rsp := rfl
@[simp] theorem abortLoad_fb (s : State) : (abortLoad s).fb = s.fb := rfl
@[simp] theorem abortLoad_dest (s : State) : (abortLoad s).dest = s.dest := rfl
@[simp] theorem abortLoad_inputs (s : State) : (abortLoad s).inputs = s.inputs := rfl
@[simp] theorem abortLoad_readData (s : State) : (abortLoad s).readData = s.readData := rfl

@[simp] theorem finishLoad_phase (s : State) : (finishLoad s).phase = .done := rfl
@[simp] theorem finishLoad_cerr (s : State) : (finishLoad s).cerr = s.cerr := rfl
@[simp] theorem finishLoad_vovf (s : State) : (finishLoad s).vovf = s.vovf := rfl
@[simp] theorem finishLoad_cmdErr (s : State) : (finishLoad s).cmdErr = s.cmdErr := rfl
@[simp] theorem finishLoad_errCode (s : State) : (finishLoad s).errCode = s.errCode := rfl
@[simp] theorem finishLoad_errInfo (s : State) : (finishLoad s).errInfo = s.errInfo := rfl
@[simp] theorem finishLoad_errTag (s : State) : (finishLoad s).errTag = s.errTag := rfl
@[simp] theorem finishLoad_ie (s : State) : (finishLoad s).ie = s.ie := rfl
@[simp] theorem finishLoad_edgeCfg (s : State) : (finishLoad s).edgeCfg = s.edgeCfg := rfl
@[simp] theorem finishLoad_seqHandle (s : State) : (finishLoad s).seqHandle = s.seqHandle := rfl
@[simp] theorem finishLoad_accSize (s : State) : (finishLoad s).accSize = 0 := rfl
@[simp] theorem finishLoad_accCap (s : State) : (finishLoad s).accCap = 0 := rfl
@[simp] theorem finishLoad_accMem (s : State) : (finishLoad s).accMem = [] := rfl
@[simp] theorem finishLoad_hdr (s : State) : (finishLoad s).hdr = s.hdr := rfl
@[simp] theorem finishLoad_payStart (s : State) : (finishLoad s).payStart = s.payStart := rfl
@[simp] theorem finishLoad_payTotal (s : State) : (finishLoad s).payTotal = s.payTotal := rfl
@[simp] theorem finishLoad_frameIdx (s : State) : (finishLoad s).frameIdx = s.frameIdx := rfl
@[simp] theorem finishLoad_vac (s : State) : (finishLoad s).vac = s.vac := rfl
@[simp] theorem finishLoad_blkIn (s : State) : (finishLoad s).blkIn = s.blkIn := rfl
@[simp] theorem finishLoad_blkOut (s : State) : (finishLoad s).blkOut = s.blkOut := rfl
@[simp] theorem finishLoad_pixIn (s : State) : (finishLoad s).pixIn = s.pixIn := rfl
@[simp] theorem finishLoad_pixOut (s : State) : (finishLoad s).pixOut = s.pixOut := rfl
@[simp] theorem finishLoad_req (s : State) : (finishLoad s).req = s.req := rfl
@[simp] theorem finishLoad_rsp (s : State) : (finishLoad s).rsp = s.rsp := rfl
@[simp] theorem finishLoad_fb (s : State) : (finishLoad s).fb = s.fb := rfl
@[simp] theorem finishLoad_dest (s : State) : (finishLoad s).dest = s.dest := rfl
@[simp] theorem finishLoad_inputs (s : State) : (finishLoad s).inputs = s.inputs := rfl
@[simp] theorem finishLoad_readData (s : State) : (finishLoad s).readData = s.readData := rfl

@[simp] theorem raiseRequest_phase (ph : Phase) (base : BitVec 64) (s : State) : (raiseRequest ph base s).phase = ph := rfl
@[simp] theorem raiseRequest_cerr (ph : Phase) (base : BitVec 64) (s : State) : (raiseRequest ph base s).cerr = s.cerr := rfl
@[simp] theorem raiseRequest_vovf (ph : Phase) (base : BitVec 64) (s : State) : (raiseRequest ph base s).vovf = s.vovf := rfl
@[simp] theorem raiseRequest_cmdErr (ph : Phase) (base : BitVec 64) (s : State) : (raiseRequest ph base s).cmdErr = s.cmdErr := rfl
@[simp] theorem raiseRequest_errCode (ph : Phase) (base : BitVec 64) (s : State) : (raiseRequest ph base s).errCode = s.errCode := rfl
@[simp] theorem raiseRequest_errInfo (ph : Phase) (base : BitVec 64) (s : State) : (raiseRequest ph base s).errInfo = s.errInfo := rfl
@[simp] theorem raiseRequest_errTag (ph : Phase) (base : BitVec 64) (s : State) : (raiseRequest ph base s).errTag = s.errTag := rfl
@[simp] theorem raiseRequest_ie (ph : Phase) (base : BitVec 64) (s : State) : (raiseRequest ph base s).ie = s.ie := rfl
@[simp] theorem raiseRequest_edgeCfg (ph : Phase) (base : BitVec 64) (s : State) : (raiseRequest ph base s).edgeCfg = s.edgeCfg := rfl
@[simp] theorem raiseRequest_seqHandle (ph : Phase) (base : BitVec 64) (s : State) : (raiseRequest ph base s).seqHandle = s.seqHandle := rfl
@[simp] theorem raiseRequest_accSize (ph : Phase) (base : BitVec 64) (s : State) : (raiseRequest ph base s).accSize = s.accSize := rfl
@[simp] theorem raiseRequest_accCap (ph : Phase) (base : BitVec 64) (s : State) : (raiseRequest ph base s).accCap = s.accCap := rfl
@[simp] theorem raiseRequest_accMem (ph : Phase) (base : BitVec 64) (s : State) : (raiseRequest ph base s).accMem = s.accMem := rfl
@[simp] theorem raiseRequest_hdr (ph : Phase) (base : BitVec 64) (s : State) : (raiseRequest ph base s).hdr = s.hdr := rfl
@[simp] theorem raiseRequest_payStart (ph : Phase) (base : BitVec 64) (s : State) : (raiseRequest ph base s).payStart = s.payStart := rfl
@[simp] theorem raiseRequest_payTotal (ph : Phase) (base : BitVec 64) (s : State) : (raiseRequest ph base s).payTotal = s.payTotal := rfl
@[simp] theorem raiseRequest_frameIdx (ph : Phase) (base : BitVec 64) (s : State) : (raiseRequest ph base s).frameIdx = s.frameIdx := rfl
@[simp] theorem raiseRequest_vac (ph : Phase) (base : BitVec 64) (s : State) : (raiseRequest ph base s).vac = s.vac := rfl
@[simp] theorem raiseRequest_blkIn (ph : Phase) (base : BitVec 64) (s : State) : (raiseRequest ph base s).blkIn = s.blkIn := rfl
@[simp] theorem raiseRequest_blkOut (ph : Phase) (base : BitVec 64) (s : State) : (raiseRequest ph base s).blkOut = s.blkOut := rfl
@[simp] theorem raiseRequest_pixIn (ph : Phase) (base : BitVec 64) (s : State) : (raiseRequest ph base s).pixIn = s.pixIn := rfl
@[simp] theorem raiseRequest_pixOut (ph : Phase) (base : BitVec 64) (s : State) : (raiseRequest ph base s).pixOut = s.pixOut := rfl
@[simp] theorem raiseRequest_req (ph : Phase) (base : BitVec 64) (s : State) : (raiseRequest ph base s).req = ⟨s.hdr.width, s.hdr.height, s.hdr.hasAlpha, s.frameIdx.setWidth 16, s.seqHandle, base⟩ := rfl
@[simp] theorem raiseRequest_rsp (ph : Phase) (base : BitVec 64) (s : State) : (raiseRequest ph base s).rsp = s.rsp := rfl
@[simp] theorem raiseRequest_fb (ph : Phase) (base : BitVec 64) (s : State) : (raiseRequest ph base s).fb = s.fb := rfl
@[simp] theorem raiseRequest_dest (ph : Phase) (base : BitVec 64) (s : State) : (raiseRequest ph base s).dest = s.dest := rfl
@[simp] theorem raiseRequest_inputs (ph : Phase) (base : BitVec 64) (s : State) : (raiseRequest ph base s).inputs = s.inputs := rfl
@[simp] theorem raiseRequest_readData (ph : Phase) (base : BitVec 64) (s : State) : (raiseRequest ph base s).readData = s.readData := rfl

@[simp] theorem storeResult_phase (r : Nat) (s : State) : (storeResult r s).phase = s.phase := rfl
@[simp] theorem storeResult_cerr (r : Nat) (s : State) : (storeResult r s).cerr = s.cerr := rfl
@[simp] theorem storeResult_vovf (r : Nat) (s : State) : (storeResult r s).vovf = decide (2 ^ 64 ≤ r) := rfl
@[simp] theorem storeResult_cmdErr (r : Nat) (s : State) : (storeResult r s).cmdErr = s.cmdErr := rfl
@[simp] theorem storeResult_errCode (r : Nat) (s : State) : (storeResult r s).errCode = s.errCode := rfl
@[simp] theorem storeResult_errInfo (r : Nat) (s : State) : (storeResult r s).errInfo = s.errInfo := rfl
@[simp] theorem storeResult_errTag (r : Nat) (s : State) : (storeResult r s).errTag = s.errTag := rfl
@[simp] theorem storeResult_ie (r : Nat) (s : State) : (storeResult r s).ie = s.ie := rfl
@[simp] theorem storeResult_edgeCfg (r : Nat) (s : State) : (storeResult r s).edgeCfg = s.edgeCfg := rfl
@[simp] theorem storeResult_seqHandle (r : Nat) (s : State) : (storeResult r s).seqHandle = s.seqHandle := rfl
@[simp] theorem storeResult_accSize (r : Nat) (s : State) : (storeResult r s).accSize = s.accSize := rfl
@[simp] theorem storeResult_accCap (r : Nat) (s : State) : (storeResult r s).accCap = s.accCap := rfl
@[simp] theorem storeResult_accMem (r : Nat) (s : State) : (storeResult r s).accMem = s.accMem := rfl
@[simp] theorem storeResult_hdr (r : Nat) (s : State) : (storeResult r s).hdr = s.hdr := rfl
@[simp] theorem storeResult_payStart (r : Nat) (s : State) : (storeResult r s).payStart = s.payStart := rfl
@[simp] theorem storeResult_payTotal (r : Nat) (s : State) : (storeResult r s).payTotal = s.payTotal := rfl
@[simp] theorem storeResult_frameIdx (r : Nat) (s : State) : (storeResult r s).frameIdx = s.frameIdx := rfl
@[simp] theorem storeResult_vac (r : Nat) (s : State) : (storeResult r s).vac = ⟨s.vac.frame, s.vac.face, s.vac.slice, s.vac.mip, BitVec.ofNat 64 r⟩ := rfl
@[simp] theorem storeResult_blkIn (r : Nat) (s : State) : (storeResult r s).blkIn = s.blkIn := rfl
@[simp] theorem storeResult_blkOut (r : Nat) (s : State) : (storeResult r s).blkOut = s.blkOut := rfl
@[simp] theorem storeResult_pixIn (r : Nat) (s : State) : (storeResult r s).pixIn = s.pixIn := rfl
@[simp] theorem storeResult_pixOut (r : Nat) (s : State) : (storeResult r s).pixOut = s.pixOut := rfl
@[simp] theorem storeResult_req (r : Nat) (s : State) : (storeResult r s).req = s.req := rfl
@[simp] theorem storeResult_rsp (r : Nat) (s : State) : (storeResult r s).rsp = s.rsp := rfl
@[simp] theorem storeResult_fb (r : Nat) (s : State) : (storeResult r s).fb = s.fb := rfl
@[simp] theorem storeResult_dest (r : Nat) (s : State) : (storeResult r s).dest = s.dest := rfl
@[simp] theorem storeResult_inputs (r : Nat) (s : State) : (storeResult r s).inputs = s.inputs := rfl
@[simp] theorem storeResult_readData (r : Nat) (s : State) : (storeResult r s).readData = s.readData := rfl

@[simp] theorem hostMemWrite_phase (a : BitVec 64) (b : Byte) (s : State) : (hostMemWrite a b s).phase = s.phase := rfl
@[simp] theorem hostMemWrite_cerr (a : BitVec 64) (b : Byte) (s : State) : (hostMemWrite a b s).cerr = s.cerr := rfl
@[simp] theorem hostMemWrite_vovf (a : BitVec 64) (b : Byte) (s : State) : (hostMemWrite a b s).vovf = s.vovf := rfl
@[simp] theorem hostMemWrite_cmdErr (a : BitVec 64) (b : Byte) (s : State) : (hostMemWrite a b s).cmdErr = s.cmdErr := rfl
@[simp] theorem hostMemWrite_errCode (a : BitVec 64) (b : Byte) (s : State) : (hostMemWrite a b s).errCode = s.errCode := rfl
@[simp] theorem hostMemWrite_errInfo (a : BitVec 64) (b : Byte) (s : State) : (hostMemWrite a b s).errInfo = s.errInfo := rfl
@[simp] theorem hostMemWrite_errTag (a : BitVec 64) (b : Byte) (s : State) : (hostMemWrite a b s).errTag = s.errTag := rfl
@[simp] theorem hostMemWrite_ie (a : BitVec 64) (b : Byte) (s : State) : (hostMemWrite a b s).ie = s.ie := rfl
@[simp] theorem hostMemWrite_edgeCfg (a : BitVec 64) (b : Byte) (s : State) : (hostMemWrite a b s).edgeCfg = s.edgeCfg := rfl
@[simp] theorem hostMemWrite_seqHandle (a : BitVec 64) (b : Byte) (s : State) : (hostMemWrite a b s).seqHandle = s.seqHandle := rfl
@[simp] theorem hostMemWrite_accSize (a : BitVec 64) (b : Byte) (s : State) : (hostMemWrite a b s).accSize = s.accSize := rfl
@[simp] theorem hostMemWrite_accCap (a : BitVec 64) (b : Byte) (s : State) : (hostMemWrite a b s).accCap = s.accCap := rfl
@[simp] theorem hostMemWrite_accMem (a : BitVec 64) (b : Byte) (s : State) : (hostMemWrite a b s).accMem = s.accMem := rfl
@[simp] theorem hostMemWrite_hdr (a : BitVec 64) (b : Byte) (s : State) : (hostMemWrite a b s).hdr = s.hdr := rfl
@[simp] theorem hostMemWrite_payStart (a : BitVec 64) (b : Byte) (s : State) : (hostMemWrite a b s).payStart = s.payStart := rfl
@[simp] theorem hostMemWrite_payTotal (a : BitVec 64) (b : Byte) (s : State) : (hostMemWrite a b s).payTotal = s.payTotal := rfl
@[simp] theorem hostMemWrite_frameIdx (a : BitVec 64) (b : Byte) (s : State) : (hostMemWrite a b s).frameIdx = s.frameIdx := rfl
@[simp] theorem hostMemWrite_vac (a : BitVec 64) (b : Byte) (s : State) : (hostMemWrite a b s).vac = s.vac := rfl
@[simp] theorem hostMemWrite_blkIn (a : BitVec 64) (b : Byte) (s : State) : (hostMemWrite a b s).blkIn = s.blkIn := rfl
@[simp] theorem hostMemWrite_blkOut (a : BitVec 64) (b : Byte) (s : State) : (hostMemWrite a b s).blkOut = s.blkOut := rfl
@[simp] theorem hostMemWrite_pixIn (a : BitVec 64) (b : Byte) (s : State) : (hostMemWrite a b s).pixIn = s.pixIn := rfl
@[simp] theorem hostMemWrite_pixOut (a : BitVec 64) (b : Byte) (s : State) : (hostMemWrite a b s).pixOut = s.pixOut := rfl
@[simp] theorem hostMemWrite_req (a : BitVec 64) (b : Byte) (s : State) : (hostMemWrite a b s).req = s.req := rfl
@[simp] theorem hostMemWrite_rsp (a : BitVec 64) (b : Byte) (s : State) : (hostMemWrite a b s).rsp = s.rsp := rfl
@[simp] theorem hostMemWrite_fb (a : BitVec 64) (b : Byte) (s : State) : (hostMemWrite a b s).fb = s.fb := rfl
@[simp] theorem hostMemWrite_dest (a : BitVec 64) (b : Byte) (s : State) : (hostMemWrite a b s).dest = s.dest.write a.toNat b := rfl
@[simp] theorem hostMemWrite_inputs (a : BitVec 64) (b : Byte) (s : State) : (hostMemWrite a b s).inputs = s.inputs := rfl
@[simp] theorem hostMemWrite_readData (a : BitVec 64) (b : Byte) (s : State) : (hostMemWrite a b s).readData = s.readData := rfl

@[simp] theorem hostMemRead_phase (a : BitVec 64) (s : State) : (hostMemRead a s).phase = s.phase := rfl
@[simp] theorem hostMemRead_cerr (a : BitVec 64) (s : State) : (hostMemRead a s).cerr = s.cerr := rfl
@[simp] theorem hostMemRead_vovf (a : BitVec 64) (s : State) : (hostMemRead a s).vovf = s.vovf := rfl
@[simp] theorem hostMemRead_cmdErr (a : BitVec 64) (s : State) : (hostMemRead a s).cmdErr = s.cmdErr := rfl
@[simp] theorem hostMemRead_errCode (a : BitVec 64) (s : State) : (hostMemRead a s).errCode = s.errCode := rfl
@[simp] theorem hostMemRead_errInfo (a : BitVec 64) (s : State) : (hostMemRead a s).errInfo = s.errInfo := rfl
@[simp] theorem hostMemRead_errTag (a : BitVec 64) (s : State) : (hostMemRead a s).errTag = s.errTag := rfl
@[simp] theorem hostMemRead_ie (a : BitVec 64) (s : State) : (hostMemRead a s).ie = s.ie := rfl
@[simp] theorem hostMemRead_edgeCfg (a : BitVec 64) (s : State) : (hostMemRead a s).edgeCfg = s.edgeCfg := rfl
@[simp] theorem hostMemRead_seqHandle (a : BitVec 64) (s : State) : (hostMemRead a s).seqHandle = s.seqHandle := rfl
@[simp] theorem hostMemRead_accSize (a : BitVec 64) (s : State) : (hostMemRead a s).accSize = s.accSize := rfl
@[simp] theorem hostMemRead_accCap (a : BitVec 64) (s : State) : (hostMemRead a s).accCap = s.accCap := rfl
@[simp] theorem hostMemRead_accMem (a : BitVec 64) (s : State) : (hostMemRead a s).accMem = s.accMem := rfl
@[simp] theorem hostMemRead_hdr (a : BitVec 64) (s : State) : (hostMemRead a s).hdr = s.hdr := rfl
@[simp] theorem hostMemRead_payStart (a : BitVec 64) (s : State) : (hostMemRead a s).payStart = s.payStart := rfl
@[simp] theorem hostMemRead_payTotal (a : BitVec 64) (s : State) : (hostMemRead a s).payTotal = s.payTotal := rfl
@[simp] theorem hostMemRead_frameIdx (a : BitVec 64) (s : State) : (hostMemRead a s).frameIdx = s.frameIdx := rfl
@[simp] theorem hostMemRead_vac (a : BitVec 64) (s : State) : (hostMemRead a s).vac = s.vac := rfl
@[simp] theorem hostMemRead_blkIn (a : BitVec 64) (s : State) : (hostMemRead a s).blkIn = s.blkIn := rfl
@[simp] theorem hostMemRead_blkOut (a : BitVec 64) (s : State) : (hostMemRead a s).blkOut = s.blkOut := rfl
@[simp] theorem hostMemRead_pixIn (a : BitVec 64) (s : State) : (hostMemRead a s).pixIn = s.pixIn := rfl
@[simp] theorem hostMemRead_pixOut (a : BitVec 64) (s : State) : (hostMemRead a s).pixOut = s.pixOut := rfl
@[simp] theorem hostMemRead_req (a : BitVec 64) (s : State) : (hostMemRead a s).req = s.req := rfl
@[simp] theorem hostMemRead_rsp (a : BitVec 64) (s : State) : (hostMemRead a s).rsp = s.rsp := rfl
@[simp] theorem hostMemRead_fb (a : BitVec 64) (s : State) : (hostMemRead a s).fb = s.fb := rfl
@[simp] theorem hostMemRead_dest (a : BitVec 64) (s : State) : (hostMemRead a s).dest = s.dest := rfl
@[simp] theorem hostMemRead_inputs (a : BitVec 64) (s : State) : (hostMemRead a s).inputs = s.inputs := rfl
@[simp] theorem hostMemRead_readData (a : BitVec 64) (s : State) : (hostMemRead a s).readData = ((s.dest.read a.toNat).getD (Config.destInit a)).setWidth 32 := rfl

theorem requestAlloc_eq (s : State) : requestAlloc s = raiseRequest .allocWait 0 s := rfl
theorem requestNotify_eq (s : State) : requestNotify s = raiseRequest .notifyWait s.fb.base s := rfl
theorem requestAppend_eq (s : State) : requestAppend s = raiseRequest .appendWait s.fb.base s := rfl

@[simp] theorem resetInput_phase (s : State) : (resetInput s).phase = State.reset.phase := rfl
@[simp] theorem resetInput_cerr (s : State) : (resetInput s).cerr = State.reset.cerr := rfl
@[simp] theorem resetInput_vovf (s : State) : (resetInput s).vovf = State.reset.vovf := rfl
@[simp] theorem resetInput_cmdErr (s : State) : (resetInput s).cmdErr = State.reset.cmdErr := rfl
@[simp] theorem resetInput_errCode (s : State) : (resetInput s).errCode = State.reset.errCode := rfl
@[simp] theorem resetInput_errInfo (s : State) : (resetInput s).errInfo = State.reset.errInfo := rfl
@[simp] theorem resetInput_errTag (s : State) : (resetInput s).errTag = State.reset.errTag := rfl
@[simp] theorem resetInput_ie (s : State) : (resetInput s).ie = State.reset.ie := rfl
@[simp] theorem resetInput_edgeCfg (s : State) : (resetInput s).edgeCfg = State.reset.edgeCfg := rfl
@[simp] theorem resetInput_seqHandle (s : State) : (resetInput s).seqHandle = State.reset.seqHandle := rfl
@[simp] theorem resetInput_accSize (s : State) : (resetInput s).accSize = State.reset.accSize := rfl
@[simp] theorem resetInput_accCap (s : State) : (resetInput s).accCap = State.reset.accCap := rfl
@[simp] theorem resetInput_accMem (s : State) : (resetInput s).accMem = State.reset.accMem := rfl
@[simp] theorem resetInput_hdr (s : State) : (resetInput s).hdr = State.reset.hdr := rfl
@[simp] theorem resetInput_payStart (s : State) : (resetInput s).payStart = State.reset.payStart := rfl
@[simp] theorem resetInput_payTotal (s : State) : (resetInput s).payTotal = State.reset.payTotal := rfl
@[simp] theorem resetInput_frameIdx (s : State) : (resetInput s).frameIdx = State.reset.frameIdx := rfl
@[simp] theorem resetInput_vac (s : State) : (resetInput s).vac = State.reset.vac := rfl
@[simp] theorem resetInput_blkIn (s : State) : (resetInput s).blkIn = State.reset.blkIn := rfl
@[simp] theorem resetInput_blkOut (s : State) : (resetInput s).blkOut = State.reset.blkOut := rfl
@[simp] theorem resetInput_pixIn (s : State) : (resetInput s).pixIn = State.reset.pixIn := rfl
@[simp] theorem resetInput_pixOut (s : State) : (resetInput s).pixOut = State.reset.pixOut := rfl
@[simp] theorem resetInput_req (s : State) : (resetInput s).req = State.reset.req := rfl
@[simp] theorem resetInput_rsp (s : State) : (resetInput s).rsp = State.reset.rsp := rfl
@[simp] theorem resetInput_fb (s : State) : (resetInput s).fb = State.reset.fb := rfl
@[simp] theorem resetInput_dest (s : State) : (resetInput s).dest = s.dest := rfl
@[simp] theorem resetInput_inputs (s : State) : (resetInput s).inputs = s.inputs := rfl
@[simp] theorem resetInput_readData (s : State) : (resetInput s).readData = s.readData := rfl

end Sys2Proof.Machine
end

