-- ==== Sys2Proof/Laws/Ops.lean ====
section
/-! SUPPORT. One lemma for each shared operation, saying once what it can do. -/

namespace Sys2Proof.Machine

theorem unlessBusy_busy {s : State} (h : s.busy = true) (r : Result) :
    unlessBusy s r = .next (raiseCmdError .busy s) := by simp [unlessBusy, h]

@[simp] theorem unlessBusy_free {s : State} (h : s.busy = false) (r : Result) : unlessBusy s r = r := by
  simp [unlessBusy, h]

theorem unlessBusy_next {s t : State} {r : Result} (h : unlessBusy s r = .next t) :
    t = raiseCmdError .busy s ∨ s.busy = false ∧ r = .next t := by
  unfold unlessBusy at h
  split at h
  · injection h with h; exact .inl h.symm
  · next hb => exact .inr ⟨by simpa using hb, h⟩

/-- The doubling loop stops at the first doubling that is large enough, or when its turns run out. -/
theorem doubleUntil_spec (fuel newSize cap : Nat) :
    ∃ k, k ≤ fuel ∧ doubleUntil fuel newSize cap = cap * 2 ^ k ∧ (k < fuel → newSize ≤ cap * 2 ^ k) ∧
      ∀ j < k, cap * 2 ^ j < newSize := by
  induction fuel generalizing cap with
  | zero => exact ⟨0, Nat.le_refl 0, by simp [doubleUntil], by simp, by simp⟩
  | succ n ih =>
    rw [doubleUntil]
    split
    · next h =>
      obtain ⟨k, hk, he, hge, hlt⟩ := ih (2 * cap)
      have hpow : ∀ j, 2 * cap * 2 ^ j = cap * 2 ^ (j + 1) := fun j => by rw [Nat.pow_succ]; ring
      refine ⟨k + 1, by omega, by rw [he, hpow], fun hk' => by rw [← hpow]; exact hge (by omega), fun j hj => ?_⟩
      cases j with
      | zero => simpa using h
      | succ i => rw [← hpow]; exact hlt i (by omega)
    · next h => exact ⟨0, by omega, by simp, fun _ => by simpa using h, by simp⟩

theorem withinMax_iff (headroom cap : Nat) :
    withinMax headroom cap = true ↔ cap ≤ Config.accInitCapacity + headroom := by
  simp only [withinMax, Bool.or_eq_true, decide_eq_true_eq]; omega

/-- What `grow` answers, with the capacity it stops at. -/
theorem grow_cases (headroom newSize cap : Nat) :
    (doubleUntil doublingTurns newSize cap < newSize ∧ grow headroom newSize cap = .diverges) ∨
    (newSize ≤ doubleUntil doublingTurns newSize cap ∧
      doubleUntil doublingTurns newSize cap ≤ Config.accInitCapacity + headroom ∧
      grow headroom newSize cap = .ok (doubleUntil doublingTurns newSize cap)) ∨
    (newSize ≤ doubleUntil doublingTurns newSize cap ∧
      Config.accInitCapacity + headroom < doubleUntil doublingTurns newSize cap ∧
      grow headroom newSize cap = .outOfMemory) := by
  unfold grow
  simp only
  split
  · next h => exact .inl ⟨h, rfl⟩
  · next h =>
    split
    · next hw => exact .inr (.inl ⟨Nat.le_of_not_lt h, (withinMax_iff ..).mp hw, rfl⟩)
    · next hw =>
      exact .inr (.inr ⟨Nat.le_of_not_lt h, Nat.lt_of_not_le fun hc => hw ((withinMax_iff ..).mpr hc), rfl⟩)

/-- What a byte push can do, when it answers a next state. -/
theorem pushBytes_next {bs : List Byte} {s t : State} (h : pushBytes bs s = .next t) :
    (∃ e, t = raiseCmdError e s) ∨
    (s.phase = .accum ∧ grow Config.accHeadroom.val (s.accSize.toNat + bs.length) s.accCap.toNat = .outOfMemory ∧
      t = raiseLoadError .accGrowth s) ∨
    (∃ cap, s.phase = .accum ∧
      grow Config.accHeadroom.val (s.accSize.toNat + bs.length) s.accCap.toNat = .ok cap ∧
      t = { s with
        accMem := s.accMem.writeList s.accSize.toNat bs
        accSize := BitVec.ofNat 32 (s.accSize.toNat + bs.length)
        accCap := BitVec.ofNat 32 cap }) := by
  rcases unlessBusy_next h with rfl | ⟨-, h⟩
  · exact .inl ⟨_, rfl⟩
  split at h
  · next hp =>
    split at h
    · next cap hg => injection h with h; exact .inr (.inr ⟨cap, hp, hg, h.symm⟩)
    · next hg => injection h with h; exact .inr (.inl ⟨hp, hg, h.symm⟩)
    · cases h
  · injection h with h; exact .inl ⟨_, h.symm⟩

/-- A store answers the BUSY error or the field written. -/
theorem storeReg_cases (r : Reg) (v : Word) (s : State) :
    ((s.busy = true ∧ regAnyPhase r = false) ∧ storeReg r v s = raiseCmdError .busy s) ∨
      ((s.busy = false ∨ regAnyPhase r = true) ∧ storeReg r v s = writeField r v s) := by
  unfold storeReg
  cases s.busy <;> cases regAnyPhase r <;> simp

/-- A read-only register holds nothing that a store could change. -/
theorem writeField_ro {r : Reg} (h : regAccess r = .ro) (v : Word) (s : State) : writeField r v s = s := by
  cases r <;> first | rfl | cases h

/-- What a write to a read-only register does: nothing, and while BUSY it reports BUSY. -/
theorem storeReg_ro {r : Reg} (h : regAccess r = .ro) (v : Word) (s : State) :
    storeReg r v s = if s.busy then raiseCmdError .busy s else s := by
  have ha : regAnyPhase r = false := by cases r <;> first | rfl | cases h
  simp [storeReg, ha, writeField_ro h]

/-- `writeChannels` writes all its bytes where the last of them lies in the address space. -/
theorem writeChannels_done (a : Nat) (bs : List Byte) (m : Memory) (h : a + bs.length ≤ 2 ^ 64) :
    writeChannels a bs m = .done (m.writeList a bs) := by
  induction bs generalizing a m with
  | nil => rfl
  | cons b rest ih =>
    simp only [List.length_cons] at h
    rw [writeChannels, if_pos (by omega), ih _ _ (by omega)]; rfl

/-- What `writeChannels` can answer. -/
theorem writeChannels_cases (a : Nat) (bs : List Byte) (m : Memory) :
    (writeChannels a bs m = .done (m.writeList a bs) ∧ (bs = [] ∨ a + bs.length ≤ 2 ^ 64)) ∨
      writeChannels a bs m = .fault .destOutsideSpace := by
  induction bs generalizing a m with
  | nil => exact .inl ⟨rfl, .inl rfl⟩
  | cons b rest ih =>
    rw [writeChannels]
    split
    · next h =>
      rcases ih (a + 1) (m.write a b) with ⟨h1, h2⟩ | h1
      · refine .inl ⟨h1, .inr ?_⟩
        rcases h2 with rfl | h2
        · simpa using h
        · simp only [List.length_cons]; omega
      · exact .inr h1
    · exact .inr rfl

/-- The memory a painting leaves, none where the model faulted. -/
def Painted.memory : Painted → Option Memory
  | .done m => some m
  | .bounds m => some m
  | .fault _ => none

/-- A property of memories that each action keeps is kept by the whole painting. -/
theorem paint_keeps {α : Type} {f : α → Memory → Painted} {P : Memory → Prop} {as : List α}
    (step : ∀ a ∈ as, ∀ m, P m → ∀ m', (f a m).memory = some m' → P m') {m m' : Memory} (h : P m)
    (hm : (paint f as m).memory = some m') : P m' := by
  induction as generalizing m with
  | nil => cases hm; exact h
  | cons a rest ih =>
    have hs := step a (List.mem_cons_self ..) m h
    rw [paint] at hm
    cases hf : f a m with
    | done m1 =>
      rw [hf] at hm hs
      exact ih (fun b hb => step b (List.mem_cons_of_mem _ hb)) (hs m1 rfl) hm
    | bounds m1 => rw [hf] at hm hs; cases hm; exact hs _ rfl
    | fault e => rw [hf] at hm; cases hm

/-- Where every action completes, the painting does. -/
theorem paint_done {α : Type} {f : α → Memory → Painted} {as : List α}
    (h : ∀ a ∈ as, ∀ m, ∃ m', f a m = .done m') (m : Memory) : ∃ m', paint f as m = .done m' := by
  induction as generalizing m with
  | nil => exact ⟨m, rfl⟩
  | cons a rest ih =>
    obtain ⟨m1, h1⟩ := h a (List.mem_cons_self ..) m
    obtain ⟨m2, h2⟩ := ih (fun b hb => h b (List.mem_cons_of_mem _ hb)) m1
    exact ⟨m2, by rw [paint, h1]; exact h2⟩

/-- A painting faults only where an action does. -/
theorem paint_fault {α : Type} {f : α → Memory → Painted} {as : List α} {m : Memory} {e : Fault}
    (h : paint f as m = .fault e) : ∃ a ∈ as, ∃ m', f a m' = .fault e := by
  induction as generalizing m with
  | nil => cases h
  | cons a rest ih =>
    rw [paint] at h
    cases hf : f a m with
    | done m1 =>
      rw [hf] at h
      obtain ⟨b, hb, hm⟩ := ih h
      exact ⟨b, List.mem_cons_of_mem _ hb, hm⟩
    | bounds m1 => rw [hf] at h; cases h
    | fault e' => rw [hf] at h; injection h with h; exact ⟨a, List.mem_cons_self .., m, h ▸ hf⟩

/-- The cells of the raster are those of the grid. -/
theorem mem_raster {w h : Nat} {p : Nat × Nat} : p ∈ raster w h ↔ p.1 < w ∧ p.2 < h := by
  simp only [raster, List.mem_flatMap, List.mem_map, List.mem_range]
  constructor
  · rintro ⟨y, hy, x, hx, rfl⟩; exact ⟨hx, hy⟩
  · rintro ⟨hx, hy⟩; exact ⟨p.2, hy, p.1, hx, rfl⟩

/-- `accRead` answers the written bytes of a range below ACC_SIZE. -/
theorem accRead_eq_some (s : State) (off n : Nat) (bs : List Byte) :
    accRead s off n = some bs ↔
      off + n ≤ s.accSize.toNat ∧ bs.length = n ∧ ∀ k < n, s.accMem.read (off + k) = bs[k]? := by
  unfold accRead
  split
  · next h => rw [Memory.readList_eq_some]; simp [h]
  · next h => simp [h]

end Sys2Proof.Machine
end

