-- ==== Sys2Proof/Laws/PerInstr.lean ====
section
/-! SUPPORT. Statements about every instruction as syntax, one lemma for each constructor of `Instr`. -/

namespace Sys2Proof.Laws

/-- The row of spec/opcode_table.json of an instruction: the offset it is written to, and its match and mask. -/
def tableRow : Instr → BitVec 12 × Word × Word
  | .nop => (0x004#12, 0x00000000#32, 0xFFFFFFFF#32)
  | .loadBegin => (0x004#12, 0x00000001#32, 0xFFFFFFFF#32)
  | .loadEnd => (0x004#12, 0x00000002#32, 0xFFFFFFFF#32)
  | .abort => (0x004#12, 0x00000003#32, 0xFFFFFFFF#32)
  | .vacMipsize _ _ => (0x004#12, 0x00000010#32, 0xFFFE00FF#32)
  | .vacOffset => (0x004#12, 0x00000011#32, 0xFFFFFFFF#32)
  | .pixRgba8888 => (0x004#12, 0x00000020#32, 0xFFFFFFFF#32)
  | .pixAbgr8888 => (0x004#12, 0x00000120#32, 0xFFFFFFFF#32)
  | .pixRgb888 => (0x004#12, 0x00000220#32, 0xFFFFFFFF#32)
  | .pixBgr888 => (0x004#12, 0x00000320#32, 0xFFFFFFFF#32)
  | .pixRgb565 => (0x004#12, 0x00000420#32, 0xFFFFFFFF#32)
  | .pixI8 => (0x004#12, 0x00000520#32, 0xFFFFFFFF#32)
  | .pixIa88 => (0x004#12, 0x00000620#32, 0xFFFFFFFF#32)
  | .pixA8 => (0x004#12, 0x00000820#32, 0xFFFFFFFF#32)
  | .pixArgb8888 => (0x004#12, 0x00000B20#32, 0xFFFFFFFF#32)
  | .pixBgra8888 => (0x004#12, 0x00000C20#32, 0xFFFFFFFF#32)
  | .blkDxt1 => (0x004#12, 0x00000D21#32, 0xFFFFFFFF#32)
  | .blkDxt5 => (0x004#12, 0x00000F21#32, 0xFFFFFFFF#32)
  | .stream1 _ _ => (0x040#12, 0x00000000#32, 0x00000000#32)
  | .stream2 _ _ => (0x044#12, 0x00000000#32, 0x00000000#32)
  | .stream3 _ _ => (0x048#12, 0x00000000#32, 0x00000000#32)
  | .stream4 _ => (0x04C#12, 0x00000000#32, 0x00000000#32)
  | .rspAckAlloc => (0x234#12, 0x00000001#32, 0xFFFFFFFF#32)
  | .rspFailAlloc => (0x234#12, 0x00000002#32, 0xFFFFFFFF#32)
  | .rspAckNotify => (0x234#12, 0x00000001#32, 0xFFFFFFFF#32)
  | .rspAckAppend => (0x234#12, 0x00000001#32, 0xFFFFFFFF#32)

/-- The encoding of an instruction lies in its row of the opcode table: at the row's offset, with the row's fixed
bits. -/
def EncodedInRow.Statement (i : Instr) : Prop :=
  (encode i).offset = (tableRow i).1 ∧ (encode i).data &&& (tableRow i).2.2 = (tableRow i).2.1

theorem EncodedInRow.nop : EncodedInRow.Statement .nop := ⟨rfl, rfl⟩
theorem EncodedInRow.loadBegin : EncodedInRow.Statement .loadBegin := ⟨rfl, rfl⟩
theorem EncodedInRow.loadEnd : EncodedInRow.Statement .loadEnd := ⟨rfl, rfl⟩
theorem EncodedInRow.abort : EncodedInRow.Statement .abort := ⟨rfl, rfl⟩
theorem EncodedInRow.vacMipsize (level : Nat) (dsel : Bool) : EncodedInRow.Statement (.vacMipsize level dsel) := by
  refine ⟨rfl, ?_⟩
  have h : ∀ (x : BitVec 8) (d : Bool),
      (0#15 ++ BitVec.ofBool d ++ x ++ 0x10#8 : Word) &&& 0xFFFE00FF#32 = 0x00000010#32 := by decide
  exact h (BitVec.ofNat 8 level) dsel
theorem EncodedInRow.vacOffset : EncodedInRow.Statement .vacOffset := ⟨rfl, rfl⟩
theorem EncodedInRow.pixRgba8888 : EncodedInRow.Statement .pixRgba8888 := ⟨rfl, rfl⟩
theorem EncodedInRow.pixAbgr8888 : EncodedInRow.Statement .pixAbgr8888 := ⟨rfl, rfl⟩
theorem EncodedInRow.pixRgb888 : EncodedInRow.Statement .pixRgb888 := ⟨rfl, rfl⟩
theorem EncodedInRow.pixBgr888 : EncodedInRow.Statement .pixBgr888 := ⟨rfl, rfl⟩
theorem EncodedInRow.pixRgb565 : EncodedInRow.Statement .pixRgb565 := ⟨rfl, rfl⟩
theorem EncodedInRow.pixI8 : EncodedInRow.Statement .pixI8 := ⟨rfl, rfl⟩
theorem EncodedInRow.pixIa88 : EncodedInRow.Statement .pixIa88 := ⟨rfl, rfl⟩
theorem EncodedInRow.pixA8 : EncodedInRow.Statement .pixA8 := ⟨rfl, rfl⟩
theorem EncodedInRow.pixArgb8888 : EncodedInRow.Statement .pixArgb8888 := ⟨rfl, rfl⟩
theorem EncodedInRow.pixBgra8888 : EncodedInRow.Statement .pixBgra8888 := ⟨rfl, rfl⟩
theorem EncodedInRow.blkDxt1 : EncodedInRow.Statement .blkDxt1 := ⟨rfl, rfl⟩
theorem EncodedInRow.blkDxt5 : EncodedInRow.Statement .blkDxt5 := ⟨rfl, rfl⟩
theorem EncodedInRow.stream1 (v : BitVec 8) (x : BitVec 24) : EncodedInRow.Statement (.stream1 v x) :=
  ⟨rfl, BitVec.and_zero⟩
theorem EncodedInRow.stream2 (v x : BitVec 16) : EncodedInRow.Statement (.stream2 v x) := ⟨rfl, BitVec.and_zero⟩
theorem EncodedInRow.stream3 (v : BitVec 24) (x : BitVec 8) : EncodedInRow.Statement (.stream3 v x) :=
  ⟨rfl, BitVec.and_zero⟩
theorem EncodedInRow.stream4 (v : BitVec 32) : EncodedInRow.Statement (.stream4 v) := ⟨rfl, BitVec.and_zero⟩
theorem EncodedInRow.rspAckAlloc : EncodedInRow.Statement .rspAckAlloc := ⟨rfl, rfl⟩
theorem EncodedInRow.rspFailAlloc : EncodedInRow.Statement .rspFailAlloc := ⟨rfl, rfl⟩
theorem EncodedInRow.rspAckNotify : EncodedInRow.Statement .rspAckNotify := ⟨rfl, rfl⟩
theorem EncodedInRow.rspAckAppend : EncodedInRow.Statement .rspAckAppend := ⟨rfl, rfl⟩

end Sys2Proof.Laws
end

