-- ==== Sys2Proof/Laws/Step.lean ====
section
/-! SUPPORT. Once and for all what a step can do: `Effect` lists the changes, `step_effect` says that every next state
is one of them. -/

namespace Sys2Proof.Machine

/-- The changes a step can make to a state, with the conditions under which it makes them. -/
inductive Effect (s : State) : State → Prop where
  | same : Effect s s
  | cmdError (e : CmdError) : Effect s (raiseCmdError e s)
  | stored (r : Reg) (v : Word) (h : s.busy = false ∨ regAnyPhase r = true) : Effect s (writeField r v s)
  | readBack (w : Word) : Effect s { s with readData := w }
  | memWritten (a : BitVec 64) (b : Byte) : Effect s (hostMemWrite a b s)
  | wasReset : Effect s (resetInput s)
  | result (r : Nat) : Effect s (storeResult r s)
  | pixel (w : Word) : Effect s { s with pixOut := w }
  | tile (v : Vector Word 16) : Effect s { s with blkOut := v }
  | begun (hb : s.busy = false) (hp : s.phase ≠ .accum) : Effect s (beginLoad s)
  | ended (hp : s.phase = .accum) : Effect s { s with phase := .parse }
  | aborted : Effect s (abortLoad s)
  | pushed (bs : List Byte) (cap : Nat) (hp : s.phase = .accum) (hne : 0 < bs.length)
      (hg : grow Config.accHeadroom.val (s.accSize.toNat + bs.length) s.accCap.toNat = .ok cap) :
      Effect s { s with
        accMem := s.accMem.writeList s.accSize.toNat bs
        accSize := BitVec.ofNat 32 (s.accSize.toNat + bs.length)
        accCap := BitVec.ofNat 32 cap }
  | pushFailed (hp : s.phase = .accum) : Effect s (raiseLoadError .accGrowth s)
  | allocRefused (e : LoadError) (hp : s.phase = .allocWait) (he : e ≠ .unsupportedFormat) :
      Effect s (raiseLoadError e s)
  | allocAccepted (hp : s.phase = .allocWait) (h1 : leastStride s.hdr ≤ s.rsp.stride.toNat)
      (h2 : needBytes s.hdr s.rsp.stride.toNat ≤ s.rsp.size.toNat)
      (h3 : s.rsp.base.toNat + s.rsp.size.toNat ≤ 2 ^ 64) :
      Effect s { s with
        fb := ⟨s.rsp.base, s.rsp.stride, s.rsp.size, BitVec.ofNat 3 s.hdr.nch⟩
        phase := .decode }
  | notifyAcked (hp : s.phase = .notifyWait) : Effect s (requestAppend s)
  | appendAcked (hp : s.phase = .appendWait) : Effect s { s with frameIdx := s.frameIdx + 1, phase := .frameStart }
  | headerShort (hp : s.phase = .parse) : Effect s (raiseLoadError .shortHeader s)
  | headerBad (h : Hdr) (e : LoadError) (hp : s.phase = .parse) : Effect s (raiseLoadError e { s with hdr := h })
  | parsed (h : Hdr) (f : Format) (hp : s.phase = .parse) (hf : h.frames ≠ 0) (ht : Format.ofTag h.format = some f)
      (hle : ({ s with hdr := h }.geometry f).total ≤ s.accSize.toNat) :
      Effect s { s with
        hdr := h
        payTotal := BitVec.ofNat 32 ({ s with hdr := h }.geometry f).total
        payStart := BitVec.ofNat 32 (s.accSize.toNat - ({ s with hdr := h }.geometry f).total)
        frameIdx := 0
        phase := .frameStart }
  | finished (hp : s.phase = .frameStart) (hf : s.frameIdx.toNat = s.hdr.frames.toNat) : Effect s (finishLoad s)
  | frameBad (e : LoadError) (hp : s.phase = .frameStart) : Effect s (raiseLoadError e s)
  | allocRaised (f : Format) (hp : s.phase = .frameStart) (hf : s.frameIdx.toNat ≠ s.hdr.frames.toNat)
      (ht : Format.ofTag s.hdr.format = some f)
      (hr : frameInRange (s.geometry f) s) :
      Effect s (requestAlloc s)
  | decodeUnsupported (hp : s.phase = .decode) (ht : Format.ofTag s.hdr.format = none) :
      Effect s (raiseLoadError .unsupportedFormat s)
  | decodeStopped (f : Format) (m : Memory) (hp : s.phase = .decode) (ht : Format.ofTag s.hdr.format = some f)
      (hd : decodeFrame f (frameSource (s.geometry f) s) s = .bounds m) :
      Effect s (raiseLoadError .destBounds { s with dest := m })
  | decoded (f : Format) (m : Memory) (hp : s.phase = .decode) (ht : Format.ofTag s.hdr.format = some f)
      (hd : decodeFrame f (frameSource (s.geometry f) s) s = .done m) :
      Effect s (requestDecoded { s with dest := m })

/-- A frame with pixels needs its whole row. -/
theorem leastStride_of_pixels {h : Hdr} (hw : 0 < h.width.toNat) (hh : 0 < h.height.toNat) :
    leastStride h = rowBytes h := if_neg (by omega)

/-- A frame without pixels passes with every stride. -/
theorem leastStride_of_empty {h : Hdr} (he : h.width.toNat = 0 ∨ h.height.toNat = 0) : leastStride h = 0 := if_pos he

/-- A frame reads no byte exactly where it has no pixel. -/
theorem Geometry.frameReadBytes_eq_zero (g : Geometry) : g.frameReadBytes = 0 ↔ g.width = 0 ∨ g.height = 0 := by
  obtain ⟨w, h, _, _, _, f, _⟩ := g
  cases f <;> simp [Geometry.frameReadBytes, Format.unit, ceilQuarter] <;> omega

/-- The range check of a frame that reads bytes is the comparison of spec/45_frame_dispatcher.md R312. -/
theorem frameInRange_of_reads {g : Geometry} {s : State} (h : g.frameReadBytes ≠ 0) :
    frameInRange g s ↔ frameSource g s + g.frameReadBytes ≤ s.accSize.toNat := or_iff_right h

/-- What the validation after the latch can do. -/
theorem validateHeader_cases (s : State) :
    (∃ e, validateHeader s = raiseLoadError e s) ∨
    ∃ f, s.hdr.sig = signature ∧ s.hdr.frames ≠ 0 ∧ Format.ofTag s.hdr.format = some f ∧
      (s.geometry f).total ≤ s.accSize.toNat ∧
      validateHeader s = { s with
        payTotal := BitVec.ofNat 32 (s.geometry f).total
        payStart := BitVec.ofNat 32 (s.accSize.toNat - (s.geometry f).total)
        frameIdx := 0
        phase := .frameStart } := by
  unfold validateHeader
  split
  · exact .inl ⟨_, rfl⟩
  split
  · exact .inl ⟨_, rfl⟩
  unfold locatePayload
  split
  · exact .inl ⟨_, rfl⟩
  · next h1 h2 _ f hf =>
    split
    · exact .inl ⟨_, rfl⟩
    · next h3 => exact .inr ⟨f, by simpa using h1, h2, hf, Nat.le_of_not_lt h3, rfl⟩

/-- What the engine's step can do. -/
theorem engineStep_effect {s t : State} (h : engineStep s = .next t) : Effect s t := by
  unfold engineStep at h
  split at h <;> try (cases h; done)
  · next hp =>
    unfold parseStep at h
    split at h
    · injection h with h; exact h ▸ .headerShort hp
    · split at h
      · cases h
      · next hb _ =>
        injection h with h
        subst h
        rcases validateHeader_cases { s with hdr := latchHeader hb } with ⟨e, he⟩ | ⟨f, -, h2, h3, h4, he⟩
        · rw [he]; exact .headerBad _ e hp
        · rw [he]; exact .parsed _ f hp h2 h3 h4
  · next hp =>
    injection h with h
    subst h
    unfold frameStartStep
    split
    · next hf => exact .finished hp hf
    split
    · exact .frameBad _ hp
    · next hf _ f ht =>
      split
      · next hr => exact .allocRaised f hp hf ht hr
      · exact .frameBad _ hp
  · next hp =>
    unfold decodeStep at h
    split at h
    · next ht => injection h with h; exact h ▸ .decodeUnsupported hp ht
    · next f ht =>
      split at h
      · next m hd => injection h with h; exact h ▸ .decoded f m hp ht hd
      · next m hd => injection h with h; exact h ▸ .decodeStopped f m hp ht hd
      · cases h

theorem respondAck_effect (s : State) : Effect s (respondAck s) := by
  unfold respondAck
  split <;> try exact .cmdError _
  · next hp =>
    unfold ackAlloc
    split
    · exact .allocRefused _ hp (by simp)
    split
    · exact .allocRefused _ hp (by simp)
    split
    · exact .allocRefused _ hp (by simp)
    · next h1 h2 h3 =>
      exact .allocAccepted hp (Nat.le_of_not_lt h1) (Nat.le_of_not_lt h2) (Nat.le_of_not_lt h3)
  · next hp => exact .notifyAcked hp
  · next hp => exact .appendAcked hp

theorem respondFail_effect (s : State) : Effect s (respondFail s) := by
  unfold respondFail
  split <;> try exact .cmdError _
  next hp => exact .allocRefused _ hp (by simp)

theorem pushBytes_effect {bs : List Byte} {s t : State} (hne : 0 < bs.length) (h : pushBytes bs s = .next t) :
    Effect s t := by
  rcases pushBytes_next h with ⟨e, rfl⟩ | ⟨hp, -, rfl⟩ | ⟨cap, hp, hg, rfl⟩
  · exact .cmdError e
  · exact .pushFailed hp
  · exact .pushed bs cap hp hne hg

theorem pixDecode_effect {f : List Byte → Pixel} {s t : State} (h : pixDecode f s = .next t) : Effect s t := by
  rcases unlessBusy_next h with rfl | ⟨-, h⟩
  · exact .cmdError _
  · injection h with h; exact h ▸ .pixel _

theorem blkDecode_effect {f : List Byte → Nat → Pixel} {s t : State} (h : blkDecode f s = .next t) : Effect s t := by
  rcases unlessBusy_next h with rfl | ⟨-, h⟩
  · exact .cmdError _
  · injection h with h; exact h ▸ .tile _

/-- What an instruction can do. -/
theorem exec_effect {i : Instr} {s t : State} (h : exec i s = .next t) : Effect s t := by
  cases i with
  | nop => injection h with h; exact h ▸ .same
  | loadBegin =>
    rcases unlessBusy_next h with rfl | ⟨hb, h⟩
    · exact .cmdError _
    · split at h <;> injection h with h
      · exact h ▸ .cmdError _
      · next hp => exact h ▸ .begun hb hp
  | loadEnd =>
    rcases unlessBusy_next h with rfl | ⟨-, h⟩
    · exact .cmdError _
    · split at h <;> injection h with h
      · next hp => exact h ▸ .ended hp
      · exact h ▸ .cmdError _
  | abort => injection h with h; exact h ▸ .aborted
  | vacMipsize level dsel =>
    rcases unlessBusy_next h with rfl | ⟨-, h⟩
    · exact .cmdError _
    · split at h <;> injection h with h
      · exact h ▸ .cmdError _
      · exact h ▸ .result _
  | vacOffset =>
    rcases unlessBusy_next h with rfl | ⟨-, h⟩
    · exact .cmdError _
    · split at h
      · injection h with h; exact h ▸ .cmdError _
      · split at h
        · injection h with h; exact h ▸ .cmdError _
        · split at h <;> injection h with h <;> exact h ▸ .result _
  | pixRgba8888 => exact pixDecode_effect h
  | pixAbgr8888 => exact pixDecode_effect h
  | pixRgb888 => exact pixDecode_effect h
  | pixBgr888 => exact pixDecode_effect h
  | pixRgb565 => exact pixDecode_effect h
  | pixI8 => exact pixDecode_effect h
  | pixIa88 => exact pixDecode_effect h
  | pixA8 => exact pixDecode_effect h
  | pixArgb8888 => exact pixDecode_effect h
  | pixBgra8888 => exact pixDecode_effect h
  | blkDxt1 => exact blkDecode_effect h
  | blkDxt5 => exact blkDecode_effect h
  | stream1 v _ => exact pushBytes_effect (by simp [streamBytes1]) h
  | stream2 v _ => exact pushBytes_effect (by simp [streamBytes2]) h
  | stream3 v _ => exact pushBytes_effect (by simp [streamBytes3]) h
  | stream4 v => exact pushBytes_effect (by simp [streamBytes4, wordBytes]) h
  | rspAckAlloc => injection h with h; exact h ▸ respondAck_effect s
  | rspFailAlloc => injection h with h; exact h ▸ respondFail_effect s
  | rspAckNotify => injection h with h; exact h ▸ respondAck_effect s
  | rspAckAppend => injection h with h; exact h ▸ respondAck_effect s

theorem refuseWrite_effect {r : Reject} {s t : State} (h : refuseWrite r s = .next t) : Effect s t := by
  have key : ∀ e, unlessBusy s (.next (raiseCmdError e s)) = .next t → Effect s t := fun e h => by
    rcases unlessBusy_next h with rfl | ⟨-, h⟩
    · exact .cmdError _
    · injection h with h; exact h ▸ .cmdError _
  cases r with
  | illegalCommand => injection h with h; exact h ▸ .cmdError _
  | pixBlockTag => exact key _ h
  | pixUnsupportedTag => exact key _ h
  | blkPixelTag => exact key _ h
  | blkUnsupportedTag => exact key _ h
  | badResponse => injection h with h; exact h ▸ .cmdError _
  | misaligned => cases h

theorem storeReg_effect (r : Reg) (v : Word) (s : State) : Effect s (storeReg r v s) := by
  rcases storeReg_cases r v s with ⟨-, h⟩ | ⟨hb, h⟩ <;> rw [h]
  · exact .cmdError _
  · exact .stored r v hb

theorem hostWrite_effect {w : Txn} {s t : State} (h : hostWrite w s = .next t) : Effect s t := by
  unfold hostWrite at h
  split at h
  · exact exec_effect h
  · exact refuseWrite_effect h
  · injection h with h; exact h ▸ storeReg_effect ..
  · injection h with h; exact h ▸ .same

/-- Every step is one of the effects, on the state with the model's own two fields moved on. -/
theorem step_effect {s t : State} (h : step s = .next t) :
    ∃ inputs readData, Effect { s with inputs := inputs, readData := readData } t := by
  unfold step at h
  split at h
  · exact ⟨s.inputs, s.readData, engineStep_effect h⟩
  · next w rest _ => exact ⟨rest, s.readData, hostWrite_effect h⟩
  · next off rest _ =>
    unfold hostRead at h
    split at h
    · injection h with h; exact ⟨rest, s.readData, h ▸ .readBack _⟩
    · cases h
  · next mask value rest _ =>
    unfold pollStatus at h
    split at h
    · injection h with h; exact ⟨rest, s.readData, h ▸ .readBack _⟩
    · exact ⟨s.inputs, statusWord s, engineStep_effect h⟩
  · next rest _ =>
    unfold engineTurn at h
    split at h
    · exact ⟨rest, s.readData, engineStep_effect h⟩
    · injection h with h; exact ⟨rest, s.readData, h ▸ .same⟩
  · next rest _ => injection h with h; exact ⟨rest, s.readData, h ▸ .wasReset⟩
  · next a b rest _ => injection h with h; exact ⟨rest, s.readData, h ▸ .memWritten a b⟩
  · next a rest _ => injection h with h; exact ⟨rest, s.readData, h ▸ .readBack _⟩

end Sys2Proof.Machine
end

