-- ==== Sys2Proof/Tests/Slice0.lean ====
section
/-! SUPPORT. Tests: ill-formed terms, words written out from the spec's encodings, single steps against the vectors of
spec/95_test_vectors.md (L1, L2), and for every obligation that has hypotheses a state that meets them. -/

namespace Sys2Proof.Tests

open Sys2Proof Sys2Proof.Machine

/-! ### Helpers -/

/-- A field of the next state a result answers. -/
def after {α : Type} (r : Result) (f : State → α) : Option α :=
  match r with
  | .next t => some (f t)
  | .fault _ => none
  | .refused _ => none

/-- A result that is a next state. -/
def answers (r : Result) : Bool := (after r fun _ => ()).isSome

theorem next_of_answers {r : Result} (h : answers r = true) : ∃ t, r = .next t := by
  cases r with
  | next t => exact ⟨t, rfl⟩
  | fault e => cases h
  | refused e => cases h

theorem run_to {r : Option State} {ph : Phase} (h : (r.map fun t => t.phase) = some ph) :
    ∃ t, r = some t ∧ t.phase = ph := by
  cases r with
  | none => cases h
  | some t => exact ⟨t, rfl, Option.some.inj h⟩

/-- A state in a phase, with a header, else as after reset. -/
def withHdr (ph : Phase) (h : Hdr) : State := { State.reset with phase := ph, hdr := h }

/-- A header latch of a size, tag, mip count and frame count. -/
def header (w h : BitVec 16) (tag : Word) (mips : BitVec 8) (frames : BitVec 16) : Hdr :=
  { Hdr.reset with width := w, height := h, format := tag, mipcount := mips, frames := frames }

/-- An empty accumulator, as LOAD_BEGIN leaves it. -/
def accumulating : State := { State.reset with phase := .accum, accCap := 1000000 }

/-- The 80 header bytes of program P3 (95_test_vectors.md), written out, with the signature's first byte, the frame
count's and the tag's low byte open. -/
def fileHeader (b0 frames tag : Byte) : List Byte :=
  [b0, 0x54, 0x46, 0x00, 7, 0, 0, 0, 2, 0, 0, 0, 80, 0, 0, 0,
   4, 0, 4, 0, 0, 0, 0, 0, frames, 0, 0, 0, 0, 0, 0, 0,
   0, 0, 0, 0, 0, 0, 0, 0, 0, 0, 0, 0, 0, 0, 0, 0,
   0, 0, 0x80, 0x3F, tag, 0, 0, 0, 1, 0xFF, 0xFF, 0xFF, 0xFF, 0, 0, 1,
   0, 0, 0, 0, 0, 0, 0, 0, 0, 0, 0, 0, 0, 0, 0, 0]

/-- A file of exactly those bytes in the accumulator, PARSE enabled (vector V29 where all is well). -/
def parsing (b0 frames tag : Byte) : State :=
  { State.reset with
    phase := .parse
    accSize := 80
    accCap := 1000000
    accMem := Memory.writeList 0 (fileHeader b0 frames tag) [] }

/-- A load of one 1 by 1 I8 frame, whose file is its one payload byte, in a phase of the frame loop. -/
def pixelLoad (ph : Phase) : State :=
  { State.reset with
    phase := ph
    accSize := 1
    accCap := 1000000
    accMem := [(0, 0x5A)]
    hdr := header 1 1 5 1 1
    payTotal := 1
    req := ⟨1, 1, false, 0, 0, 0x1000⟩
    rsp := ⟨0x1000, 3, 3⟩
    fb := ⟨0x1000, 3, 3, 3⟩ }

/-- A load of one DXT1 frame of one block (vector D1's), in DECODE. -/
def blockLoad (edge : BitVec 2) (side : BitVec 16) (stride : Word) (size : BitVec 64) : State :=
  { State.reset with
    phase := .decode
    edgeCfg := edge
    accSize := 8
    accCap := 1000000
    accMem := [(0, 0x00), (1, 0xF8), (2, 0x1F), (3, 0x00), (4, 0xE4), (5, 0xE4), (6, 0xE4), (7, 0xE4)]
    hdr := header side side 13 1 1
    payTotal := 8
    req := ⟨side, side, true, 0, 0, 0⟩
    fb := ⟨0x1000, stride, size, 4⟩ }

theorem reset_inv : State.reset.Inv where
  accCanonical := by decide
  destCanonical := by decide
  destInSpace := by decide
  accListed := by decide
  sizeFits := by decide
  capacity := by decide
  capWithin := by decide
  cmdErrNone := by decide
  cmdErrSome := fun h => absurd h (by decide)
  errNone := by decide
  errSome := fun h => absurd h (by decide)
  frameIdxRange := by decide
  frameIdxStart := by decide
  payStart0 := by decide
  located := fun h => absurd h (by decide)
  pending := fun h => absurd h (by decide)
  accepted := by decide
  reqBase := by decide
  notifyFirst := by decide

theorem accumulating_inv : accumulating.Inv where
  accCanonical := by decide
  destCanonical := by decide
  destInSpace := by decide
  accListed := by decide
  sizeFits := by decide
  capacity := by decide
  capWithin := by decide
  cmdErrNone := by decide
  cmdErrSome := fun h => absurd h (by decide)
  errNone := by decide
  errSome := fun h => absurd h (by decide)
  frameIdxRange := by decide
  frameIdxStart := by decide
  payStart0 := by decide
  located := fun h => absurd h (by decide)
  pending := fun h => absurd h (by decide)
  accepted := by decide
  reqBase := by decide
  notifyFirst := by decide

theorem pixelLoad_inv (ph : Phase) (hl : ph.inLoop = true) : (pixelLoad ph).Inv := by
  cases ph <;> first | exact absurd hl (by decide) | exact {
    accCanonical := by decide
    destCanonical := by decide
    destInSpace := by decide
    accListed := by decide
    sizeFits := by decide
    capacity := by decide
    capWithin := by decide
    cmdErrNone := by decide
    cmdErrSome := fun h => absurd h (by decide)
    errNone := by decide
    errSome := fun h => absurd h (by decide)
    frameIdxRange := by decide
    frameIdxStart := by decide
    payStart0 := by decide
    located := fun _ => ⟨by decide, by decide, .i8, by decide, by decide, by decide⟩
    pending := fun _ => ⟨by decide, fun f hf => by cases hf; decide, by decide, by decide, by decide, by decide, by decide⟩
    accepted := by decide
    reqBase := by decide
    notifyFirst := by decide }

theorem blockLoad_inv (p : BitVec 2 × BitVec 16 × Word × BitVec 64)
    (hp : p ∈ [(0, 4, 16, 64), (0, 1, 4, 4), (1, 4, 16, 64), (1, 1, 4, 4)]) :
    (blockLoad p.1 p.2.1 p.2.2.1 p.2.2.2).Inv := by
  fin_cases hp <;> exact {
    accCanonical := by decide
    destCanonical := by decide
    destInSpace := by decide
    accListed := by decide
    sizeFits := by decide
    capacity := by decide
    capWithin := by decide
    cmdErrNone := by decide
    cmdErrSome := fun h => absurd h (by decide)
    errNone := by decide
    errSome := fun h => absurd h (by decide)
    frameIdxRange := by decide
    frameIdxStart := by decide
    payStart0 := by decide
    located := fun _ => ⟨by decide, by decide, .dxt1, by decide, by decide, by decide⟩
    pending := fun _ => ⟨by decide, fun f hf => by cases hf; decide, by decide, by decide, by decide, by decide, by decide⟩
    accepted := by decide
    reqBase := by decide
    notifyFirst := by decide }

/-! ### Ill-formed terms -/

theorem test_wellFormed_refuses_level_256 : (Instr.vacMipsize 256 false).wellFormed = false := by decide

theorem test_wellFormed_accepts_level_255 : (Instr.vacMipsize 255 true).wellFormed = true := by decide

theorem test_wellFormed_refuses_misaligned : (⟨0x041#12, 0#32⟩ : Txn).wellFormed = false := by decide

/-! ### Words written out from 30_encoding.md R101 to R106 -/

theorem test_decode_nop : decode .none ⟨0x004#12, 0b00000000000000000000000000000000#32⟩ = .run .nop := by decide

theorem test_decode_load_begin :
    decode .none ⟨0x004#12, 0b00000000000000000000000000000001#32⟩ = .run .loadBegin := by decide

theorem test_decode_load_end :
    decode .none ⟨0x004#12, 0b00000000000000000000000000000010#32⟩ = .run .loadEnd := by decide

theorem test_decode_abort :
    decode .none ⟨0x004#12, 0b00000000000000000000000000000011#32⟩ = .run .abort := by decide

theorem test_decode_vac_mipsize :
    decode .none ⟨0x004#12, 0b00000000000000011010010100010000#32⟩ = .run (.vacMipsize 0xA5 true) := by decide

theorem test_decode_vac_offset :
    decode .none ⟨0x004#12, 0b00000000000000000000000000010001#32⟩ = .run .vacOffset := by decide

theorem test_decode_pix :
    [0x00000020#32, 0x00000120#32, 0x00000220#32, 0x00000320#32, 0x00000420#32, 0x00000520#32, 0x00000620#32,
      0x00000820#32, 0x00000B20#32, 0x00000C20#32].map (fun w => decode .none ⟨0x004#12, w⟩) =
    [.run .pixRgba8888, .run .pixAbgr8888, .run .pixRgb888, .run .pixBgr888, .run .pixRgb565, .run .pixI8,
      .run .pixIa88, .run .pixA8, .run .pixArgb8888, .run .pixBgra8888] := by decide

theorem test_decode_blk :
    [0x00000D21#32, 0x00000F21#32].map (fun w => decode .none ⟨0x004#12, w⟩) =
      [.run .blkDxt1, .run .blkDxt5] := by decide

theorem test_decode_stream :
    [(0x040#12, 0x44332211#32), (0x044#12, 0x44332211#32), (0x048#12, 0x44332211#32),
      (0x04C#12, 0x44332211#32)].map (fun p => decode .none ⟨p.1, p.2⟩) =
    [.run (.stream1 0x11#8 0x443322#24), .run (.stream2 0x2211#16 0x4433#16), .run (.stream3 0x332211#24 0x44#8),
      .run (.stream4 0x44332211#32)] := by decide

theorem test_decode_response :
    [(ReqType.alloc, 1#32), (.alloc, 2#32), (.notify, 1#32), (.append, 1#32), (.none, 0#32)].map
      (fun p => decode p.1 ⟨0x234#12, p.2⟩) =
    [.run .rspAckAlloc, .run .rspFailAlloc, .run .rspAckNotify, .run .rspAckAppend, .refuse .badResponse] := by decide

/-- Reserved bits are not dropped (R104; vectors P-8, F16), and tags that are no instruction are named (R243, R281). -/
theorem test_decode_refuses :
    [0x00010020#32, 0x00010000#32, 0x00000101#32, 0x80000003#32, 0x00020010#32, 0x000000FF#32].all
      (fun w => decode .none ⟨0x004#12, w⟩ = .refuse .illegalCommand) = true ∧
    decode .none ⟨0x004#12, 0x00000D20#32⟩ = .refuse .pixBlockTag ∧
    decode .none ⟨0x004#12, 0x00000720#32⟩ = .refuse .pixUnsupportedTag ∧
    decode .none ⟨0x004#12, 0x00000121#32⟩ = .refuse .blkPixelTag ∧
    decode .none ⟨0x004#12, 0x00001D21#32⟩ = .refuse .blkUnsupportedTag ∧
    decode .none ⟨0x028#12, 0x00000001#32⟩ = .unmapped ∧
    decode .none ⟨0x070#12, 0x00000100#32⟩ = .store .hdrWidth 0x100#32 := by decide

theorem test_table_words :
    decodeTableWord 32 0x00000001 = some .loadBegin ∧ decodeTableWord 32 0x00000F21 = some .blkDxt5 ∧
    decodeTableWord 48 0x04CDDCCBBAA = some (.stream4 0xDDCCBBAA#32) ∧ decodeTableWord 32 0x00000004 = none := by decide

/-- PUSH of 30_encoding.md R107: full groups of four, then the rest. -/
theorem test_push_groups :
    hostPush [1, 2, 3, 4, 5, 6] = [.write ⟨0x04C#12, 0x04030201#32⟩, .write ⟨0x044#12, 0x00000605#32⟩] := by decide

/-! ### Single steps against the vectors -/

/-- L2.1 A1: LOAD_BEGIN after reset, fetched. -/
theorem test_load_begin :
    after (step (State.reset.withFetchWord 32 1)) (fun t => (readOffset 0x008#12 t, t.accSize, t.accCap)) =
      some (0x00000100#32, 0#32, 1000000#32) := by decide

/-- L2.1 A2: the high byte of STREAM3 is ignored. -/
theorem test_stream3 :
    after (hostWrite ⟨0x048#12, 0xAA465456#32⟩ accumulating) (fun t => (t.accMem, t.accSize)) =
      some ([(0, 0x56), (1, 0x54), (2, 0x46)], 3#32) := by decide

/-- L2.1 A7: a push after reset. -/
theorem test_stream4_wrong_phase :
    after (hostWrite ⟨0x04C#12, 0#32⟩ State.reset) (fun t => (readOffset 0x00C#12 t, readOffset 0x008#12 t, t.accSize)) =
      some (2#32, 0x00000010#32, 0#32) := by decide

/-- L2.1 A10: LOAD_END, then SHORT_HEADER. -/
theorem test_load_end :
    after (exec .loadEnd accumulating) (readOffset 0x008#12) = some 0x00000201#32 ∧
    after (engineStep { accumulating with phase := .parse }) (readOffset 0x010#12) = some 0x0102#32 := by decide

/-- L2.6 F18: ABORT in NOTIFY_WAIT keeps the payload registers. -/
theorem test_abort :
    after (exec .abort (pixelLoad .notifyWait))
      (fun t => (readOffset 0x008#12 t, readOffset 0x200#12 t, t.accSize, t.accCap, t.payTotal)) =
      some (0#32, 0#32, 0#32, 0#32, 1#32) := by decide

/-- L2.3 V1 and V2. -/
theorem test_vac_mipsize :
    after (exec (.vacMipsize 0 false) (withHdr .idle (header 256 256 13 9 2))) (fun t => (t.vac.res, t.vovf)) =
      some (32768#64, false) ∧
    after (exec (.vacMipsize 8 false) (withHdr .idle (header 256 256 13 9 2))) (fun t => (t.vac.res, t.vovf)) =
      some (8#64, false) := by decide

/-- The header of vectors V8 to V16. -/
def deepHeader : Hdr := { header 8 4 0 4 3 with verMajor := 7, verMinor := 2, depthRaw := 4 }

/-- L2.3 V9 and V17: DSEL and the version rule. -/
theorem test_vac_mipsize_depth :
    after (exec (.vacMipsize 0 true) (withHdr .idle deepHeader)) (fun t => t.vac.res) = some 128#64 ∧
    after (exec (.vacMipsize 0 false) (withHdr .idle { deepHeader with verMinor := 1 })) (fun t => t.vac.res) =
      some 128#64 := by decide

/-- L2.3 V4, V6 and V13. -/
theorem test_vac_offset :
    after (exec .vacOffset { withHdr .idle (header 256 256 13 9 2) with vac := ⟨1, 0, 0, 0, 0⟩ }) (fun t => t.vac.res) =
      some 54640#64 ∧
    after (exec .vacOffset { withHdr .idle (header 256 256 13 9 2) with vac := ⟨7, 0, 0, 0xFFFFFFFF, 0⟩ })
      (fun t => t.vac.res) = some 87408#64 ∧
    after (exec .vacOffset { withHdr .idle deepHeader with vac := ⟨1, 0, 2, 1, 0⟩ }) (fun t => t.vac.res) =
      some 164#64 := by decide

/-- The state of vector V18. -/
def overflowing : State := { withHdr .idle (header 65535 65535 0 1 65535) with vac := ⟨0xFFFFFFFF, 0, 0, 0, 0⟩ }

/-- L2.3 V18: the result is stored modulo 2^64. -/
theorem test_vac_offset_overflow :
    after (exec .vacOffset overflowing) (fun t => (t.vac.res, t.vovf)) =
      some (0xFFF800000007FFFC#64, true) := by decide

/-- L2.4: PIX_IN = 0x44332211 under the ten tags. -/
theorem test_pix_decode :
    [Instr.pixRgba8888, .pixAbgr8888, .pixRgb888, .pixBgr888, .pixRgb565, .pixI8, .pixIa88, .pixA8, .pixArgb8888,
      .pixBgra8888].map (fun i => after (exec i { State.reset with pixIn := 0x44332211#32 }) fun t => t.pixOut) =
    [some 0x44332211#32, some 0x11223344#32, some 0xFF332211#32, some 0xFF112233#32, some 0xFF8C4121#32,
      some 0xFF111111#32, some 0x22111111#32, some 0x11FFFFFF#32, some 0x33221144#32, some 0x44112233#32] := by decide

/-- L2.5 D1 and D2: BLK_OUT0 to BLK_OUT3. -/
theorem test_blk_dxt1 :
    after (exec .blkDxt1 { State.reset with blkIn := #v[0x001FF800#32, 0xE4E4E4E4#32, 0, 0] })
      (fun t => [t.blkOut[0], t.blkOut[1], t.blkOut[2], t.blkOut[3]]) =
      some [0xFF0000FF#32, 0xFFFF0000#32, 0xFF5500AA#32, 0xFFAA0055#32] ∧
    after (exec .blkDxt1 { State.reset with blkIn := #v[0xF800001F#32, 0xE4E4E4E4#32, 0, 0] })
      (fun t => [t.blkOut[0], t.blkOut[1], t.blkOut[2], t.blkOut[3]]) =
      some [0xFFFF0000#32, 0xFF0000FF#32, 0xFF800080#32, 0x00000000#32] := by decide

/-- L2.5 X1: BLK_OUT0 to BLK_OUT7. -/
theorem test_blk_dxt5 :
    after (exec .blkDxt5 { State.reset with blkIn := #v[0xC68800FF#32, 0xFAC688FA#32, 0xF800001F#32, 0xE4E4E4E4#32] })
      (fun t => t.blkOut.toList.take 8) =
      some [0xFFFF0000#32, 0x000000FF#32, 0xDBAA0055#32, 0xB65500AA#32, 0x92FF0000#32, 0x6D0000FF#32, 0x49AA0055#32,
        0x245500AA#32] := by decide

/-- L2.2 H3 and H4, L1.9 with tag 99, and L2.3 V29 with a header alone. -/
theorem test_parse_outcomes :
    after (engineStep (parsing 0x57 1 0)) (fun t => (readOffset 0x010#12 t, t.hdr.sig)) =
      some (0x0202#32, 0x00465457#32) ∧
    after (engineStep (parsing 0x56 0 0)) (readOffset 0x010#12) = some 0x0302#32 ∧
    after (engineStep (parsing 0x56 1 99)) (fun t => (readOffset 0x010#12 t, t.errTag, t.hdr.width)) =
      some (0x0003#32, 99#32, 4#16) ∧
    after (engineStep (parsing 0x56 1 0)) (fun t => (t.phase, t.payStart, t.payTotal)) =
      some (.frameStart, 16#32, 64#32) := by decide

/-- L2.2 H9: header fields of P3. -/
theorem test_parse_latch :
    after (engineStep (parsing 0x56 1 0)) (fun t => [t.hdr.verMajor, t.hdr.verMinor, t.hdr.headersize, t.hdr.bumpscale,
      t.hdr.lrFormat]) = some [7#32, 2#32, 80#32, 0x3F800000#32, 0xFFFFFFFF#32] ∧
    after (engineStep (parsing 0x56 1 0)) (fun t => (t.hdr.height, t.hdr.mipcount, t.hdr.depthRaw, t.hdr.lrWidth)) =
      some (4#16, 1#8, 1#16, 0#8) := by decide

/-- L2.6 F1, F2, F3, F4 and F6 over the P3 header, in ALLOC_WAIT; then F7 (W = 0), and H = 0 by R314's corner case (log
entry 28). -/
theorem test_alloc_answers :
    [(⟨0x1000, 15, 64⟩ : Rsp), ⟨0x1000, 16, 63⟩, ⟨0xFFFFFFFFFFFFFFE0, 16, 64⟩, ⟨0xFFFFFFFFFFFFFFC0, 16, 64⟩].map
      (fun r => after (exec .rspAckAlloc { withHdr .allocWait (header 4 4 0 1 1) with rsp := r }) (readOffset 0x010#12)) =
      [some 0x0105#32, some 0x0205#32, some 0x0305#32, some 0#32] ∧
    after (exec .rspFailAlloc (withHdr .allocWait (header 4 4 0 1 1))) (fun t => (readOffset 0x010#12 t, t.frameIdx)) =
      some (0x0201#32, 0#32) ∧
    after (exec .rspAckAlloc (withHdr .allocWait (header 0 4 0 1 1))) (fun t => t.phase) = some .decode ∧
    after (exec .rspAckAlloc (withHdr .allocWait (header 4 0 0 1 1))) (fun t => t.phase) = some .decode := by decide

/-- L2.6 F8, F9 and F10. -/
theorem test_response_errors :
    after (hostWrite ⟨0x234#12, 1#32⟩ State.reset) (readOffset 0x00C#12) = some 6#32 ∧
    after (hostWrite ⟨0x234#12, 3#32⟩ State.reset) (readOffset 0x00C#12) = some 4#32 ∧
    after (hostWrite ⟨0x234#12, 2#32⟩ (pixelLoad .notifyWait)) (fun t => (readOffset 0x00C#12 t, readOffset 0x008#12 t)) =
      some (4#32, 0x00000619#32) := by decide

/-- L2.6 F15, F16 and F17. -/
theorem test_busy_hazards :
    after (hostWrite ⟨0x04C#12, 0#32⟩ (pixelLoad .notifyWait)) (readOffset 0x00C#12) = some 3#32 ∧
    after (hostWrite ⟨0x004#12, 0x00010000#32⟩ (pixelLoad .notifyWait)) (readOffset 0x00C#12) = some 1#32 ∧
    after (hostWrite ⟨0x018#12, 0xF#32⟩ (pixelLoad .notifyWait)) State.irq = some true := by decide

/-- R394 and R52: while BUSY a write to a read-only register reports BUSY (log entry 19), one to an unassigned offset nothing
(log entry 29). -/
theorem test_busy_read_only :
    after (hostWrite ⟨0x030#12, 9#32⟩ (pixelLoad .notifyWait)) (fun t => (t.accSize, readOffset 0x00C#12 t)) =
      some (1#32, 3#32) ∧
    after (hostWrite ⟨0x030#12, 9#32⟩ State.reset) (readOffset 0x00C#12) = some 0#32 ∧
    after (hostWrite ⟨0x028#12, 9#32⟩ (pixelLoad .notifyWait)) (readOffset 0x00C#12) = some 0#32 := by decide

/-- R312 and U6 with HDR_MIPCOUNT = 0: with W = 0 frames 0 (vector V27) and 1 (log entry 30) pass; a frame with bytes to
read fails (vector V26). -/
theorem test_frame_start_no_levels :
    after (engineStep (withHdr .frameStart (header 0 4 0 0 2))) (fun t => t.phase) = some .allocWait ∧
    after (engineStep { withHdr .frameStart (header 0 4 0 0 2) with frameIdx := 1 }) (fun t => t.phase) =
      some .allocWait ∧
    after (engineStep (withHdr .frameStart (header 4 4 0 0 1))) (readOffset 0x010#12) = some 0x0502#32 := by decide

/-- R232 and R238: a 1 by 1 I8 frame puts three bytes into the buffer and raises NOTIFY. -/
theorem test_decode_pixel :
    after (engineStep (pixelLoad .decode)) (fun t => (t.dest, t.phase)) =
      some ([(0x1000, 0x5A), (0x1001, 0x5A), (0x1002, 0x5A)], .notifyWait) := by decide

/-- R279 and R280 on a 1 by 1 DXT1 frame with a buffer of one pixel: CLIP writes that pixel (vector D1's red); LEGACY
writes it too and stops at the next. -/
theorem test_decode_block_edges :
    after (engineStep (blockLoad 0 1 4 4)) (fun t => (t.dest, t.phase)) =
      some ([(0x1000, 0xFF), (0x1001, 0), (0x1002, 0), (0x1003, 0xFF)], .notifyWait) ∧
    after (engineStep (blockLoad 1 1 4 4)) (fun t => (t.dest, readOffset 0x010#12 t)) =
      some ([(0x1000, 0xFF), (0x1001, 0), (0x1002, 0), (0x1003, 0xFF)], 0x0004#32) := by decide

/-! ### Witnesses: for each obligation with hypotheses, states and operands that meet them -/

theorem witness_DecodeOfEncodeIsTheInstruction :
    ((Instr.vacMipsize 255 true).wellFormed = true ∧ (Instr.vacMipsize 255 true).readUnder .none = true) ∧
    (Instr.rspAckNotify.wellFormed = true ∧ Instr.rspAckNotify.readUnder .notify = true) := by decide

theorem witness_EncodeOfDecodeIsTheWrite :
    decode .append ⟨0x234#12, 1#32⟩ = .run .rspAckAppend ∧
    decode .none ⟨0x048#12, 0xAA465456#32⟩ = .run (.stream3 0x465456#24 0xAA#8) := by decide

theorem witness_IllegalCommandWordsAreRefused :
    (∀ r ∈ opcodeMap, 0x00020010#32 &&& r.mask ≠ r.pattern) ∧
    (∀ r ∈ opcodeMap, 0x00000004#32 &&& r.mask ≠ r.pattern) := by decide

theorem witness_StepRunsTheDecodedInstruction :
    ({ State.reset with inputs := [.write ⟨0x004#12, 1#32⟩] }.inputs = .write ⟨0x004#12, 1#32⟩ :: [] ∧
      decode State.reset.phase.reqType ⟨0x004#12, 1#32⟩ = .run .loadBegin) ∧
    State.reset.inputs = [] ∧
    (State.reset.phase.reqType = .none ∧ decodeTableWord 32 0x11 = some .vacOffset) := by decide

theorem witness_PlainStoreReadsBackAndNothingElseChanges :
    (regAccess .hdrWidth = .rw ∧ State.reset.busy = false) ∧
    (regAccess .ie = .rw ∧ (pixelLoad .decode).busy = true ∧ regAnyPhase .ie = true) := by decide

theorem witness_BusyWritesAreDropped :
    (pixelLoad .decode).busy = true ∧ regAccess .hdrWidth ≠ .ro ∧ regAccess .stream4 ≠ .ro ∧
      ∀ r ∈ [Reg.hdrWidth, .stream4],
        r ∉ [Reg.status, .ie, .rspBaseLo, .rspBaseHi, .rspStride, .rspSizeLo, .rspSizeHi, .rspCtrl, .cmd] := by decide

theorem witness_ConfigurationIsFrozenWhileBusy :
    (pixelLoad .frameStart).busy = true ∧ (∀ rest, (pixelLoad .frameStart).inputs ≠ .rst :: rest) ∧
    (pixelLoad .frameStart).phase ≠ .parse ∧ (∃ t, step (pixelLoad .frameStart) = .next t) ∧
    ({ parsing 0x56 1 0 with inputs := [.read 0x00C#12] }.busy = true ∧
      { parsing 0x56 1 0 with inputs := [.read 0x00C#12] }.cause ≠ some .engine) ∧
    ∃ t, step { parsing 0x56 1 0 with inputs := [.read 0x00C#12] } = .next t :=
  ⟨by decide, fun _ h => (by cases h), by decide, next_of_answers (by decide), by decide, next_of_answers (by decide)⟩

theorem witness_UnassignedAndReadOnlyWritesAreIgnored :
    ((0x028#12).toNat % 4 = 0 ∧ Reg.all.all (fun r => r.offset ≠ 0x028#12) = true) ∧
    ((0xFFC#12).toNat % 4 = 0 ∧ Reg.all.all (fun r => r.offset ≠ 0xFFC#12) = true) ∧
    (∀ r : Reg, r.offset ≠ 0x028#12) ∧ regAccess .accSize = .ro ∧ State.reset.busy = false ∧
    (pixelLoad .decode).busy = true := by
  refine ⟨by decide, by decide, fun r => ?_, by decide, by decide, by decide⟩
  cases r with
  | blkIn k => fin_cases k <;> decide
  | blkOut k => fin_cases k <;> decide
  | _ => decide

theorem witness_ReadsChangeNothing :
    { State.reset with inputs := [.read 0x00C#12] }.inputs = .read 0x00C#12 :: [] ∧ (0x00C#12).toNat % 4 = 0 := by decide

theorem witness_ForeignTagsAreRefused :
    ∀ tag ∈ [7#8, 9#8, 10#8, 13#8, 14#8, 15#8, 16#8, 255#8], tag.toNat ∉ [0, 1, 2, 3, 4, 5, 6, 8, 11, 12] ∧
      (tag.toNat ∉ [13, 15] ∨ tag.toNat ∈ [13, 15]) ∧ (0#8).toNat ∉ [13, 15] ∧ (14#8).toNat ∉ [13, 15] := by decide

theorem witness_BusyCommandsAreRefused :
    (pixelLoad .decode).busy = true ∧ Instr.vacOffset ≠ .nop ∧ Instr.vacOffset ≠ .abort ∧
      (encode .vacOffset).offset ≠ 0x234#12 := by decide

theorem witness_ResponseWritesAreCheckedInOrder :
    (3#32 ≠ 1#32 ∧ 3#32 ≠ 2#32) ∧
    (State.reset.phase ≠ .allocWait ∧ State.reset.phase ≠ .notifyWait ∧ State.reset.phase ≠ .appendWait) ∧
    (pixelLoad .notifyWait).phase = .notifyWait ∧ (pixelLoad .appendWait).phase = .appendWait ∧
    (pixelLoad .allocWait).phase = .allocWait := by decide

theorem witness_LoadBeginAndLoadEndBoundTheAccumulation :
    State.reset.phase = .idle ∧ (withHdr .done Hdr.reset).phase = .done ∧ (withHdr .failed Hdr.reset).phase = .failed ∧
    accumulating.phase = .accum ∧ (pixelLoad .decode).busy = true := by decide

/-- A state of ACCUM whose next push must double the capacity, and one whose next push no 32-bit capacity holds: the
largest ACC_SIZE, at the twelfth doubling. -/
def nearlyFull (size cap : Word) : State := { State.reset with phase := .accum, accSize := size, accCap := cap }

theorem witness_StreamPushesItsBytes :
    (instrPushed (.stream2 0x0046#16 0#16) = some [0x46, 0x00]) ∧
    (accumulating.phase = .accum ∧ 0 < accumulating.accCap.toNat ∧
      accumulating.accSize.toNat + 2 ≤ accumulating.accCap.toNat * 2 ^ 0 ∧
      accumulating.accCap.toNat * 2 ^ 0 ≤ Config.accMaxCapacity) ∧
    ((nearlyFull 999999 1000000).accSize.toNat + 2 ≤ (nearlyFull 999999 1000000).accCap.toNat * 2 ^ 1 ∧
      ∀ j < 1, (nearlyFull 999999 1000000).accCap.toNat * 2 ^ j < (nearlyFull 999999 1000000).accSize.toNat + 2) ∧
    ((nearlyFull 4294967295 4096000000).accSize.toNat + 2 ≤ (nearlyFull 4294967295 4096000000).accCap.toNat * 2 ^ 1 ∧
      (∀ j < 1, (nearlyFull 4294967295 4096000000).accCap.toNat * 2 ^ j <
        (nearlyFull 4294967295 4096000000).accSize.toNat + 2) ∧
      Config.accMaxCapacity < (nearlyFull 4294967295 4096000000).accCap.toNat * 2 ^ 1) ∧
    (pixelLoad .decode).busy = true ∧ State.reset.busy = false ∧ State.reset.phase ≠ .accum := by
  have h := Config.accHeadroom.isLt
  refine ⟨by decide, ⟨by decide, by decide, by decide, ?_⟩, by decide, ⟨by decide, by decide, ?_⟩, by decide, by decide,
    by decide⟩
  · show 1000000 * 2 ^ 0 ≤ 1000000 + Config.accHeadroom.val
    omega
  · show 1000000 + Config.accHeadroom.val < 4096000000 * 2 ^ 1
    omega

/-- The largest doubling that ACC_MAX_CAPACITY allows exists, and there are pushes of any number of bytes. -/
theorem witness_ChunkingDoesNotMatter :
    (accumulating.phase = .accum ∧ accumulating.accSize = 0#32 ∧ accumulating.accCap = 1000000#32 ∧
      accumulating.accMem = []) ∧
    ([Instr.stream2 0x5446#16 0#16].map instrPushed = [[0x46, 0x54]].map some ∧
      [Instr.stream1 0x46#8 0#24, .stream1 0x54#8 0#24].map instrPushed = [[0x46], [0x54]].map some ∧
      [[(0x46 : Byte), 0x54]].flatten = [[0x46], [0x54]].flatten) ∧
    (∃ m, 1000000 * 2 ^ m ≤ Config.accMaxCapacity ∧ Config.accMaxCapacity < 1000000 * 2 ^ (m + 1)) ∧
    ∀ n, ∃ (js : List Instr) (ds : List (List Byte)), js.map instrPushed = ds.map some ∧ n < ds.flatten.length := by
  refine ⟨by decide, by decide, ⟨Nat.log 2 (Config.accMaxCapacity / 1000000), ?_, ?_⟩, fun n => ?_⟩
  · have h : Config.accMaxCapacity / 1000000 ≠ 0 := by
      show (1000000 + Config.accHeadroom.val) / 1000000 ≠ 0
      omega
    have := Nat.pow_log_le_self 2 h
    omega
  · have := Nat.lt_pow_succ_log_self (b := 2) (by decide) (Config.accMaxCapacity / 1000000)
    omega
  · exact ⟨List.replicate (n + 1) (.stream1 0#8 0#24), List.replicate (n + 1) [0], by simp [instrPushed], by simp⟩

theorem witness_CapacityIsTheFirstDoublingThatHolds :
    (accumulating.Inv ∧ accumulating.phase.holdsBuffer = true) ∧
    (State.reset.Inv ∧ State.reset.phase.holdsBuffer = false) :=
  ⟨⟨accumulating_inv, by decide⟩, reset_inv, by decide⟩

theorem witness_AccumulatorIsAppendOnly :
    (∃ t, step { accumulating with inputs := [.write ⟨0x040#12, 0x56#32⟩] } = .next t ∧
      t.phase.holdsBuffer = true ∧ 1 ≤ t.accSize.toNat) ∧
    accumulating.phase.holdsBuffer = true ∧
    (∃ t, step (pixelLoad .frameStart) = .next t ∧ t.phase.holdsBuffer = true) ∧ (pixelLoad .frameStart).busy = true :=
  ⟨⟨_, rfl, by decide, by decide⟩, by decide, ⟨_, rfl, by decide⟩, by decide⟩

theorem witness_VacMipsizeComputesTheMipSize :
    (pixelLoad .decode).busy = true ∧
    (State.reset.busy = false ∧ Format.ofTag (withHdr .idle (header 1 1 7 1 1)).hdr.format = none) ∧
    (Format.ofTag (withHdr .idle deepHeader).hdr.format = some .rgba8888 ∧ Format.rgba8888.unit = .pixel 4) ∧
    (Format.ofTag (blockLoad 2 4 16 64).hdr.format = some .dxt1 ∧ Format.dxt1.unit = .block 8 ∧
      (blockLoad 2 4 16 64).edgeCfg.getLsbD 1 = true ∧ (blockLoad 1 4 16 64).edgeCfg.getLsbD 1 = false) := by decide

theorem witness_VacOffsetComputesTheOffset :
    (pixelLoad .decode).busy = true ∧ overflowing.busy = false ∧
    ((-2 : Int) = (0xFFFFFFFE#32).toInt ∧ (-1 : Int) = (0xFFFFFFFF#32).toInt) ∧
    ({ overflowing with vac := ⟨0, 0, 0, 0xFFFFFFFE, 0⟩ }.vac.mip.toInt < -1) ∧
    ({ overflowing with vac := ⟨0, 0, 0, 0xFFFFFFFF, 0⟩ }.vac.mip.toInt = -1) ∧
    0 ≤ overflowing.vac.mip.toInt ∧ Format.ofTag overflowing.hdr.format = some .rgba8888 ∧
    Format.ofTag (withHdr .idle (header 1 1 7 1 1)).hdr.format = none := by decide

/-- Geometries for the clauses about levels, at the sizes where they begin. -/
def chain (w h d : Nat) (f : Format) (floor : Bool) : Geometry := ⟨w, h, d, 9, 2, f, floor⟩

theorem witness_MipSizesDoNotRise :
    ((chain 8 4 4 .rgba8888 false).format.unit = .pixel 4 ∧ mipDim 8 3 = 1 ∧ mipDim 4 3 = 1 ∧ mipDim 4 3 = 1) ∧
    ((chain 256 256 1 .dxt1 false).format.unit = .block 8 ∧ (chain 256 256 1 .dxt1 false).floor = false ∧
      mipDim 256 6 = 4 ∧ mipDim 1 6 = 1) ∧
    ((chain 256 256 1 .dxt1 true).floor = true ∧ mipDim 256 7 < 4) := by decide

theorem witness_SlicesLieInsideThePayload :
    ((8 : Nat) < (chain 256 256 1 .dxt1 false).mips ∧ 1 < (chain 256 256 1 .dxt1 false).frames ∧
      3 < mipDim (chain 8 4 4 .rgba8888 true).depth 0) ∧
    (chain 8 4 4 .rgba8888 true).format.unit = .pixel 4 ∧ (chain 256 256 1 .dxt1 false).floor = false := by decide

theorem witness_CopyingFormatsMoveTheirBytes : State.reset.busy = false := by decide

theorem witness_Rgb565ExpandsItsFields :
    (0x2211 : Nat) = (0x11#8).toNat + 256 * (0x22#8).toNat ∧ State.reset.busy = false := by decide

theorem witness_PaletteEntriesAreTheSpecs :
    ((255 : Nat) = (255#8).toNat ∧ (0 : Nat) = (0#8).toNat ∧ (255 : Nat) > 0) ∧ (100 : Nat) ≤ (100#8).toNat := by decide

theorem witness_InterpolationStaysBetweenEndpoints :
    ((1, 1, 1, 2) : Nat × Nat × Nat × Nat) ∈ [(4, 2, 3, 6), (2, 4, 3, 6), (1, 1, 1, 2), (12, 2, 7, 14), (10, 4, 7, 14),
      (8, 6, 7, 14), (6, 8, 7, 14), (4, 10, 7, 14), (2, 12, 7, 14), (8, 2, 5, 10), (6, 4, 5, 10), (4, 6, 5, 10),
      (2, 8, 5, 10)] := by decide

theorem witness_BlkDecodeDxt1DecodesTheTile :
    State.reset.busy = false ∧ (0#16 : BitVec 16) = State.reset.blkIn[0].extractLsb' 0 16 ∧
      (0#16 : BitVec 16) = State.reset.blkIn[0].extractLsb' 16 16 := by decide

theorem witness_BlkDecodeDxt5DecodesTheTile :
    State.reset.busy = false ∧ (0#48 : BitVec 48) = State.reset.blkIn[1] ++ State.reset.blkIn[0].extractLsb' 16 16 := by
  decide

theorem witness_Dxt1OpacityFollowsTheMode :
    (le16 [1, 0, 0, 0, 0xE4, 0xE4, 0xE4, 0xE4] 0).toNat > (le16 [1, 0, 0, 0, 0xE4, 0xE4, 0xE4, 0xE4] 2).toNat ∧
    (le16 [0, 0, 0, 0, 0xE4, 0xE4, 0xE4, 0xE4] 0 = 0#16 ∧ le16 [0, 0, 0, 0, 0xE4, 0xE4, 0xE4, 0xE4] 2 = 0#16 ∧ 15 < 16) := by
  decide

theorem witness_ParseLatchesTheHeader :
    (parsing 0x56 1 0).phase = .parse ∧ accRead (parsing 0x56 1 0) 0 80 = some (fileHeader 0x56 1 0) := by decide

/-- A header alone whose format byte is 0 asks for 64 bytes and fits; with four frames it does not (R206). -/
theorem witness_ParseChecksInOrder :
    ({ accumulating with phase := .parse }.phase = .parse ∧ { accumulating with phase := .parse }.accSize.toNat < 80) ∧
    leNat (fileHeader 0x57 1 0) 0 4 ≠ 0x00465456 ∧
    (leNat (fileHeader 0x56 0 0) 0 4 = 0x00465456 ∧ leNat (fileHeader 0x56 0 0) 24 2 = 0) ∧
    (leNat (fileHeader 0x56 1 14) 24 2 ≠ 0 ∧ Format.ofTag (latchHeader (fileHeader 0x56 1 14)).format = none) ∧
    (Format.ofTag (latchHeader (fileHeader 0x56 1 0)).format = some .rgba8888 ∧
      ({ parsing 0x56 1 0 with hdr := latchHeader (fileHeader 0x56 1 0) }.geometry .rgba8888).total ≤ 80 ∧
      ({ parsing 0x56 4 0 with hdr := latchHeader (fileHeader 0x56 4 0) }.geometry .rgba8888).total > 80) := by decide

theorem witness_FrameStartFinishesFailsOrRequests :
    Format.ofTag (pixelLoad .frameStart).hdr.format = some .i8 ∧
    { pixelLoad .frameStart with frameIdx := 1 }.frameIdx.toNat =
      { pixelLoad .frameStart with frameIdx := 1 }.hdr.frames.toNat ∧
    ((pixelLoad .frameStart).frameIdx.toNat ≠ (pixelLoad .frameStart).hdr.frames.toNat ∧
      (pixelLoad .frameStart).source .i8 + ((pixelLoad .frameStart).geometry .i8).frameReadBytes ≤
        (pixelLoad .frameStart).accSize.toNat) ∧
    ((pixelLoad .frameStart).hdr.width.toNat ≠ 0 ∧ (pixelLoad .frameStart).hdr.height.toNat ≠ 0 ∧
      (header 0 4 0 0 2).width.toNat = 0 ∧ (header 4 0 0 0 2).height.toNat = 0) ∧
    { pixelLoad .frameStart with payStart := 1 }.source .i8 +
      ({ pixelLoad .frameStart with payStart := 1 }.geometry .i8).frameReadBytes >
        { pixelLoad .frameStart with payStart := 1 }.accSize.toNat := by decide

theorem witness_FrameRangeCheckPassesAfterParse :
    (pixelLoad .frameStart).Inv ∧ Format.ofTag (pixelLoad .frameStart).hdr.format = some .i8 ∧
      (pixelLoad .frameStart).frameIdx.toNat ≠ (pixelLoad .frameStart).hdr.frames.toNat ∧
      1 ≤ (pixelLoad .frameStart).hdr.mipcount.toNat ∧ Format.i8.unit = .pixel 1 :=
  ⟨pixelLoad_inv _ (by decide), by decide, by decide, by decide, by decide⟩

theorem witness_PixelFrameIsDecodedInPlace :
    (pixelLoad .decode).Inv ∧ Format.ofTag (pixelLoad .decode).hdr.format = some .i8 ∧ Format.i8.unit = .pixel 1 ∧
      Format.i8.pixelFunction = some pixI8 :=
  ⟨pixelLoad_inv _ (by decide), by decide, by decide, rfl⟩

theorem witness_BlockFrameIsDecodedAndClipped :
    (blockLoad 0 1 4 4).Inv ∧ (blockLoad 0 1 4 4).phase = .decode ∧ (blockLoad 0 1 4 4).edgeCfg.getLsbD 0 = false ∧
      Format.ofTag (blockLoad 0 1 4 4).hdr.format = some .dxt1 ∧ Format.dxt1.unit = .block 8 ∧
      Format.dxt1.blockFunction = some dxt1Pixel :=
  ⟨blockLoad_inv (0, 1, 4, 4) (by decide), by decide, by decide, by decide, by decide, rfl⟩

/-- One frame whose tile fits the buffer to its last byte, one whose tile passes the buffer's end. -/
theorem witness_LegacyFrameStopsAtTheBufferEnd :
    ((blockLoad 1 4 16 64).Inv ∧ (blockLoad 1 4 16 64).edgeCfg.getLsbD 0 = true ∧
      Format.ofTag (blockLoad 1 4 16 64).hdr.format = some .dxt1 ∧
      ∀ w ∈ (blockLoad 1 4 16 64).tileWrites .dxt1 8 dxt1Pixel, w.1 + 4 ≤
        (blockLoad 1 4 16 64).fb.base.toNat + (blockLoad 1 4 16 64).fb.size.toNat) ∧
    ((blockLoad 1 1 4 4).Inv ∧ ∃ w ∈ (blockLoad 1 1 4 4).tileWrites .dxt1 8 dxt1Pixel,
      (blockLoad 1 1 4 4).fb.base.toNat + (blockLoad 1 1 4 4).fb.size.toNat < w.1 + 4) :=
  ⟨⟨blockLoad_inv (1, 4, 16, 64) (by decide), by decide, by decide, by decide⟩,
    blockLoad_inv (1, 1, 4, 4) (by decide), by decide⟩

theorem witness_ClipAndLegacyAgreeOnWholeBlocks :
    (blockLoad 1 4 16 64).Inv ∧ (blockLoad 1 4 16 64).phase = .decode ∧
      Format.ofTag (blockLoad 1 4 16 64).hdr.format = some .dxt1 ∧ Format.dxt1.unit = .block 8 ∧
      (blockLoad 1 4 16 64).hdr.width.toNat % 4 = 0 ∧ (blockLoad 1 4 16 64).hdr.height.toNat % 4 = 0 :=
  ⟨blockLoad_inv (1, 4, 16, 64) (by decide), by decide, by decide, by decide, by decide, by decide⟩

theorem witness_AllocAnswersLatchTheBufferOrFail :
    (pixelLoad .allocWait).phase = .allocWait ∧
    ((3 : Nat) = if (pixelLoad .allocWait).hdr.width.toNat = 0 ∨ (pixelLoad .allocWait).hdr.height.toNat = 0 then 0
      else (pixelLoad .allocWait).hdr.width.toNat * (if (pixelLoad .allocWait).hdr.hasAlpha then 4 else 3)) ∧
    ((header 4 0 0 1 1).width.toNat ≠ 0 ∧ (header 4 0 0 1 1).height.toNat = 0) ∧
    ((3 : Nat) ≤ (pixelLoad .allocWait).rsp.stride.toNat ∧ (3 : Nat) ≤ (pixelLoad .allocWait).rsp.size.toNat ∧
      (pixelLoad .allocWait).rsp.base.toNat + (pixelLoad .allocWait).rsp.size.toNat ≤ 2 ^ 64) ∧
    ((⟨0, 2, 3⟩ : Rsp).stride.toNat < 3 ∧ (⟨0, 3, 2⟩ : Rsp).size.toNat < 3 ∧
      (⟨0xFFFFFFFFFFFFFFFE, 3, 3⟩ : Rsp).base.toNat + (⟨0xFFFFFFFFFFFFFFFE, 3, 3⟩ : Rsp).size.toNat > 2 ^ 64) := by
  decide

theorem witness_AckNotifyRaisesAppend : (pixelLoad .notifyWait).phase = .notifyWait ∧ (pixelLoad .notifyWait).Inv :=
  ⟨by decide, pixelLoad_inv _ (by decide)⟩

theorem witness_AckAppendGoesToTheNextFrame :
    (pixelLoad .appendWait).phase = .appendWait ∧ (pixelLoad .appendWait).Inv :=
  ⟨by decide, pixelLoad_inv _ (by decide)⟩

/-- A step that stays in FAILED, and one that leaves it. -/
theorem witness_FailedKeepsTheFirstLoadError :
    (∃ t, step { withHdr .failed Hdr.reset with inputs := [.write ⟨0x004#12, 0#32⟩] } = .next t ∧ t.phase = .failed) ∧
    (∃ t, step { withHdr .failed Hdr.reset with inputs := [.write ⟨0x004#12, 1#32⟩] } = .next t ∧ t.phase = .accum) :=
  ⟨⟨_, rfl, rfl⟩, _, rfl, rfl⟩

theorem witness_ResetInputResetsEveryRegister :
    { pixelLoad .decode with inputs := [.rst] }.inputs = .rst :: [] := by decide

theorem witness_EveryStepKeepsTheInvariant : (pixelLoad .decode).Inv ∧ ∃ t, step (pixelLoad .decode) = .next t :=
  ⟨pixelLoad_inv _ (by decide), next_of_answers (by decide)⟩

theorem witness_OnlyAnIdleMachineStops : State.reset.Inv ∧ step State.reset = .fault .stuckOnHost := ⟨reset_inv, rfl⟩

theorem witness_PhaseMovesOnlyByTheTable :
    ∃ t, step (pixelLoad .decode) = .next t ∧ t.phase ≠ (pixelLoad .decode).phase := ⟨_, rfl, by decide⟩

/-- The rest of program P3's host side for the one 4 by 4 RGBA8888 frame of `parsing`: three ACKs. -/
def served : State :=
  { parsing 0x56 1 0 with
    rsp := ⟨0x1000, 16, 64⟩
    inputs := [.engineTurn, .engineTurn, hostAck, .engineTurn, hostAck, hostAck, .engineTurn] }

theorem witness_RequestsComeInFrameOrder :
    (served.phase = .parse ∧ ∃ t, busyRun 7 served = some t ∧ t.phase = .done) ∧
    ((parsing 0x57 1 0).phase = .parse ∧ ∃ t, busyRun 1 (parsing 0x57 1 0) = some t ∧ t.phase = .failed) :=
  ⟨⟨by decide, run_to (by decide +kernel)⟩, by decide, run_to (by decide +kernel)⟩

theorem witness_ServedLoadEnds : (pixelLoad .decode).Inv ∧ (pixelLoad .decode).busy = true :=
  ⟨pixelLoad_inv _ (by decide), by decide⟩

theorem witness_OnlyVacCommandsWriteVovf :
    ∃ t, step { overflowing with inputs := [.write ⟨0x004#12, 0x11#32⟩] } = .next t ∧ t.vovf ≠ overflowing.vovf :=
  ⟨_, rfl, by decide⟩

theorem witness_OnlyDecodeWritesTheFrameBuffer :
    (pixelLoad .decode).Inv ∧ ∃ t, step (pixelLoad .decode) = .next t ∧ t.dest ≠ (pixelLoad .decode).dest :=
  ⟨pixelLoad_inv _ (by decide), _, rfl, by decide⟩

theorem witness_EngineIgnoresDestinationContents : ∃ t, engineStep (pixelLoad .decode) = .next t :=
  next_of_answers (by decide)

theorem witness_HostWritesOutsideTheBufferCommute :
    (pixelLoad .decode).Inv ∧ (pixelLoad .decode).phase = .decode ∧
    ((0xFFF#64).toNat < (pixelLoad .decode).fb.base.toNat ∧
      (pixelLoad .decode).fb.base.toNat + (pixelLoad .decode).fb.size.toNat ≤ (0x1003#64).toNat) ∧
    ∃ t, engineStep (pixelLoad .decode) = .next t :=
  ⟨pixelLoad_inv _ (by decide), by decide, by decide, next_of_answers (by decide)⟩

end Sys2Proof.Tests
end

section
/-! PROOFS. What a step does with each head of the list of inputs that O5 speaks of, what the opcode table's words
decode to, and from both: a step runs the decoded instruction (spec/00_scope.md R6, spec/30_encoding.md R100). -/

namespace Sys2Proof.Machine

/-- With no input left, a step is the engine's. -/
theorem step_of_inputs_nil {s : State} (h : s.inputs = []) : step s = engineStep s := by
  simp only [step, h]

/-- A register write at the head of the inputs is taken off the list and given to the register port. -/
theorem step_of_inputs_write {s : State} {t : Txn} {rest : List Input} (h : s.inputs = .write t :: rest) :
    step s = hostWrite t { s with inputs := rest } := by
  simp only [step, h]

/-- R100: a write that decodes to an instruction is that instruction's meaning. -/
theorem hostWrite_of_decode_run {s : State} {t : Txn} {i : Instr} (h : decode s.phase.reqType t = .run i) :
    hostWrite t s = exec i s := by
  simp only [hostWrite, h]

/-- R6 and R100 together: the step of a state whose next input is the write of an instruction. -/
theorem step_of_inputs_instr {s : State} {t : Txn} {rest : List Input} {i : Instr}
    (hin : s.inputs = .write t :: rest) (hdec : decode s.phase.reqType t = .run i) :
    step s = exec i { s with inputs := rest } :=
  (step_of_inputs_write hin).trans (hostWrite_of_decode_run hdec)

/-- A word of the opcode table is read as `i` exactly where its write decodes to `i` with no request pending. -/
theorem decodeTableWord_eq_some_iff {nbits w : Nat} {i : Instr} :
    decodeTableWord nbits w = some i ↔ decode .none (tableTxn nbits w) = .run i := by
  unfold decodeTableWord
  cases decode .none (tableTxn nbits w) with
  | run j => simp only [Option.some.injEq, Decoded.run.injEq]
  | refuse r => simp only [reduceCtorEq]
  | store r v => simp only [reduceCtorEq]
  | unmapped => simp only [reduceCtorEq]

/-- Log entry 9: `withFetchWord` changes nothing but the inputs, so the step that takes its write off again runs the
instruction on the state as it was. -/
theorem step_withFetchWord {s : State} {nbits w : Nat} {i : Instr} (hreq : s.phase.reqType = .none)
    (hword : decodeTableWord nbits w = some i) : step (s.withFetchWord nbits w) = exec i s := by
  have hdec : decode (s.withFetchWord nbits w).phase.reqType (tableTxn nbits w) = .run i := by
    rw [show (s.withFetchWord nbits w).phase.reqType = .none from hreq]
    exact decodeTableWord_eq_some_iff.mp hword
  exact step_of_inputs_instr (s := s.withFetchWord nbits w) (rest := s.inputs) rfl hdec

/-- Settles O5, one clause for each kind of next input: a write that decodes to an instruction, none left, and the
write of a word of the opcode table. -/
theorem stepRunsTheDecodedInstruction : Obligations.StepRunsTheDecodedInstruction :=
  ⟨fun _ _ _ _ => step_of_inputs_instr, fun _ => step_of_inputs_nil, fun _ _ _ _ => step_withFetchWord⟩

end Sys2Proof.Machine
end

section
/-! PROOFS. The doubling rule as an equation: the capacity after one growth is what growing at once would give
(spec/40_accumulator.md R153, R160). -/

namespace Sys2Proof.Machine

/-- The loop stops at any doubling that is the first to hold the new size and within its turns. -/
theorem doubleUntil_eq_of_first {fuel newSize cap k : Nat} (hk : k ≤ fuel) (hfit : newSize ≤ cap * 2 ^ k)
    (hfirst : ∀ j < k, cap * 2 ^ j < newSize) : doubleUntil fuel newSize cap = cap * 2 ^ k := by
  obtain ⟨k', hk', heq, hfit', hfirst'⟩ := doubleUntil_spec fuel newSize cap
  have hle : ¬ k < k' := fun h => absurd (hfirst' k h) (by omega)
  have hge : ¬ k' < k := fun h => absurd (hfirst k' h) (by have := hfit' (by omega); omega)
  rw [heq, show k' = k by omega]

/-- A capacity that already holds the size is kept. -/
theorem doubleUntil_of_le {fuel newSize cap : Nat} (h : newSize ≤ cap) : doubleUntil fuel newSize cap = cap := by
  simpa using doubleUntil_eq_of_first (k := 0) (fuel := fuel) (Nat.zero_le _) (by simpa using h) (by simp)

/-- The turns `doublingTurns` are enough for every capacity above 0 and every size of at most 2 ^ 32. -/
theorem le_doublingTurns {newSize cap k : Nat} (hcap : 0 < cap) (hsize : newSize ≤ 2 ^ 32)
    (hfirst : ∀ j < k, cap * 2 ^ j < newSize) : k ≤ doublingTurns := by
  by_contra hlt
  have h32 : cap * 2 ^ 32 < newSize := hfirst 32 (by unfold doublingTurns at hlt; omega)
  omega

/-- Growing for one size and then for a larger one is growing for the larger one at once. -/
theorem doubleUntil_doubleUntil {oldSize newSize cap : Nat} (hcap : 0 < cap) (hle : oldSize ≤ newSize)
    (hsize : newSize ≤ 2 ^ 32)
    (hfit : newSize ≤ doubleUntil doublingTurns newSize (doubleUntil doublingTurns oldSize cap)) :
    doubleUntil doublingTurns newSize (doubleUntil doublingTurns oldSize cap) =
      doubleUntil doublingTurns newSize cap := by
  obtain ⟨k, -, hold, -, hfirst⟩ := doubleUntil_spec doublingTurns oldSize cap
  rw [hold] at hfit ⊢
  obtain ⟨l, -, hnew, -, hfirst'⟩ := doubleUntil_spec doublingTurns newSize (cap * 2 ^ k)
  have hpow : ∀ j, cap * 2 ^ k * 2 ^ j = cap * 2 ^ (k + j) := fun j => by rw [Nat.pow_add, Nat.mul_assoc]
  rw [hnew, hpow] at hfit ⊢
  have hbelow : ∀ j < k + l, cap * 2 ^ j < newSize := fun j hj => by
    rcases Nat.lt_or_ge j k with hjk | hjk
    · exact Nat.lt_of_lt_of_le (hfirst j hjk) hle
    · have hj' := hfirst' (j - k) (by omega)
      rwa [hpow, Nat.add_sub_cancel' hjk] at hj'
  exact (doubleUntil_eq_of_first (le_doublingTurns hcap hsize hbelow) hfit hbelow).symm

/-- R154 and 00_scope.md R7: a capacity within ACC_MAX_CAPACITY is a 32-bit value. -/
theorem lt_of_withinMax {cap : Nat} (h : withinMax Config.accHeadroom.val cap = true) : cap < 2 ^ 32 := by
  have hle := (withinMax_iff ..).mp h
  have hroom := Config.accHeadroom.isLt
  have hinit : Config.accInitCapacity = 1000000 := rfl
  omega

/-- What an accepted growth answers: the doubling, which holds the new size and is within ACC_MAX_CAPACITY. -/
theorem grow_eq_ok {headroom newSize cap c : Nat} (h : grow headroom newSize cap = .ok c) :
    c = doubleUntil doublingTurns newSize cap ∧ newSize ≤ c ∧ withinMax headroom c = true := by
  rcases grow_cases headroom newSize cap with ⟨-, hg⟩ | ⟨hfit, hmax, hg⟩ | ⟨-, -, hg⟩ <;> rw [hg] at h
  · cases h
  · cases h
    exact ⟨rfl, hfit, (withinMax_iff ..).mpr hmax⟩
  · cases h

end Sys2Proof.Machine
end

section
/-! PROOFS. What painting a frame keeps: every property of memories that a write inside the address space keeps
(spec/43_pixel_formats.md R232, spec/44_block_decompressor.md R278). -/

namespace Sys2Proof.Machine

/-- A property of memories that a byte write below 2 ^ 64 keeps. -/
def KeptByWrites (P : Memory → Prop) : Prop := ∀ a < 2 ^ 64, ∀ b m, P m → P (Memory.write a b m)

theorem writeChannels_keeps {P : Memory → Prop} (hP : KeptByWrites P) {a : Nat} {bs : List Byte} {m m' : Memory}
    (h : P m) (hm : (writeChannels a bs m).memory = some m') : P m' := by
  induction bs generalizing a m with
  | nil => cases hm; exact h
  | cons b rest ih =>
    rw [writeChannels] at hm
    split at hm
    · next ha => exact ih (hP a ha b m h) hm
    · cases hm

theorem pixelStep_keeps {P : Memory → Prop} (hP : KeptByWrites P) {f : List Byte → Pixel} {bpp off : Nat} {s : State}
    {p : Nat × Nat} {m m' : Memory} (h : P m) (hm : (pixelStep f bpp off s p m).memory = some m') : P m' := by
  unfold pixelStep at hm
  split at hm
  · cases hm
  · exact writeChannels_keeps hP h hm

theorem writeBlockPixel_keeps {P : Memory → Prop} (hP : KeptByWrites P) {s : State} {x y : Nat} {p : Pixel}
    {m m' : Memory} (h : P m) (hm : (writeBlockPixel s x y p m).memory = some m') : P m' := by
  simp only [writeBlockPixel] at hm
  split at hm
  · split at hm
    · cases hm; exact h
    · exact writeChannels_keeps hP h hm
  · split at hm
    · exact writeChannels_keeps hP h hm
    · cases hm; exact h

theorem blockStep_keeps {P : Memory → Prop} (hP : KeptByWrites P) {f : List Byte → Nat → Pixel} {bb off : Nat}
    {s : State} {p : Nat × Nat} {m m' : Memory} (h : P m) (hm : (blockStep f bb off s p m).memory = some m') :
    P m' := by
  unfold blockStep at hm
  split at hm
  · cases hm
  · exact paint_keeps (fun _ _ _ h1 _ hm1 => writeBlockPixel_keeps hP h1 hm1) h hm

/-- Every frame decoder is a painting of pixels or of blocks. -/
theorem decodeFrame_cases (f : Format) (off : Nat) (s : State) :
    (∃ pix bpp, decodeFrame f off s = decodePixels pix bpp off s) ∨
      ∃ dec bb, decodeFrame f off s = decodeBlocks dec bb off s := by
  cases f with
  | dxt1 => exact .inr ⟨_, _, rfl⟩
  | dxt5 => exact .inr ⟨_, _, rfl⟩
  | _ => exact .inl ⟨_, _, rfl⟩

/-- Decoding a frame keeps what a write inside the address space keeps. -/
theorem decodeFrame_keeps {P : Memory → Prop} (hP : KeptByWrites P) {f : Format} {off : Nat} {s : State}
    {m : Memory} (h : P s.dest) (hm : (decodeFrame f off s).memory = some m) : P m := by
  rcases decodeFrame_cases f off s with ⟨pix, bpp, heq⟩ | ⟨dec, bb, heq⟩ <;> rw [heq] at hm
  · exact paint_keeps (fun _ _ _ h1 _ hm1 => pixelStep_keeps hP h1 hm1) h hm
  · exact paint_keeps (fun _ _ _ h1 _ hm1 => blockStep_keeps hP h1 hm1) h hm

/-- What the invariant says of the destination memory: canonical, with 64-bit addresses (spec/20_memory.md R70). -/
def Memory.inSpace (m : Memory) : Prop := m.wf ∧ ∀ c ∈ m, c.1 < 2 ^ 64

theorem Memory.inSpace_keptByWrites : KeptByWrites Memory.inSpace := by
  rintro a ha b m ⟨hwf, hlt⟩
  refine ⟨Memory.wf_write hwf a b, fun c hc => ?_⟩
  rcases Memory.mem_write hc with rfl | hc
  · exact ha
  · exact hlt c hc

end Sys2Proof.Machine
end

section
/-! PROOFS. Every step keeps the invariant: one lemma for each kind of change that `Effect` lists, each naming the
fields of the invariant that the change bears on. -/

namespace Sys2Proof.Machine

/-! ### The phases -/

theorem Phase.inLoop_of_inFrame {p : Phase} (h : p.inFrame = true) : p.inLoop = true := by
  cases p <;> first | rfl | cases h

theorem Phase.inLoop_of_hasFrameBuffer {p : Phase} (h : p.hasFrameBuffer = true) : p.inLoop = true := by
  cases p <;> first | rfl | cases h

theorem Phase.holdsBuffer_of_inLoop {p : Phase} (h : p.inLoop = true) : p.holdsBuffer = true := by
  cases p <;> first | rfl | cases h

theorem Phase.ne_of_inLoop {p q : Phase} (h : p.inLoop = true) (hq : q.inLoop = false) : p ≠ q :=
  fun he => by rw [he, hq] at h; cases h

/-- A machine that is not BUSY is outside the frame loop. -/
theorem Phase.inLoop_of_busy_false {p : Phase} (h : p.busy = false) : p.inLoop = false := by
  cases p <;> first | rfl | cases h

/-! ### The parts of the invariant that no phase bears on -/

/-- What the invariant says in every phase alike: the destination memory, the command error and FRAME_IDX's range. It
is all that the ends of a load (a load error, ABORT, DONE) and its beginning need of the state before. -/
structure State.Standing (s : State) : Prop where
  dest : s.dest.inSpace
  cmdErrNone : s.cerr = false → s.cmdErr = 0
  cmdErrSome : s.cerr = true → ∃ e : CmdError, s.cmdErr = e.code
  frameIdxRange : s.frameIdx.toNat ≤ 65535

section Parts
variable {s : State}

theorem State.Inv.dest_inSpace (h : s.Inv) : s.dest.inSpace := ⟨h.destCanonical, h.destInSpace⟩

theorem State.Inv.standing (h : s.Inv) : s.Standing := { h with dest := h.dest_inSpace }

theorem State.Inv.withDest (h : s.Inv) {m : Memory} (hm : m.inSpace) : { s with dest := m }.Inv :=
  { h with destCanonical := hm.1, destInSpace := hm.2 }

theorem State.Inv.capacity_of_holdsBuffer (h : s.Inv) (hb : s.phase.holdsBuffer = true) :
    s.accCap.toNat = doubleUntil doublingTurns s.accSize.toNat Config.accInitCapacity :=
  h.capacity.trans (if_pos hb)

/-! ### The ends and the beginning of a load -/

/-- Without a buffer and outside the frame loop only the registers that stand in every phase and the error registers
matter. -/
theorem State.Standing.inv_of_released (h : s.Standing) (hsize : s.accSize = 0) (hcap : s.accCap = 0)
    (hmem : s.accMem = []) (hphase : s.phase.holdsBuffer = false)
    (herrNone : s.phase ≠ .failed → s.errCode = 0 ∧ s.errInfo = 0 ∧ s.errTag = 0)
    (herrSome : s.phase = .failed →
      ∃ e : LoadError, s.errCode = e.code ∧ s.errInfo = e.info ∧ (e ≠ .unsupportedFormat → s.errTag = 0))
    (hidx : s.phase = .idle → s.frameIdx = 0) : s.Inv := by
  have hloop : s.phase.inLoop ≠ true := fun hl => by rw [Phase.holdsBuffer_of_inLoop hl] at hphase; cases hphase
  have hne : ∀ {q : Phase}, q.holdsBuffer = true → s.phase ≠ q := fun hq he => by rw [he, hq] at hphase; cases hphase
  exact {
    accCanonical := hmem ▸ Memory.wf_nil
    destCanonical := h.dest.1
    destInSpace := h.dest.2
    accListed := by rw [hmem, hsize]; rfl
    sizeFits := by rw [hsize, hcap]
    capacity := by rw [hcap, hphase]; rfl
    capWithin := by rw [hcap]; rfl
    cmdErrNone := h.cmdErrNone
    cmdErrSome := h.cmdErrSome
    errNone := herrNone
    errSome := herrSome
    frameIdxRange := h.frameIdxRange
    frameIdxStart := fun hp => hp.elim hidx fun hp => absurd hp (not_or.mpr ⟨hne rfl, hne rfl⟩)
    payStart0 := fun hp => absurd hp (not_or.mpr ⟨hne rfl, hne rfl⟩)
    located := fun hl => absurd hl hloop
    pending := fun hf => absurd (Phase.inLoop_of_inFrame hf) hloop
    accepted := fun hb => absurd (Phase.inLoop_of_hasFrameBuffer hb) hloop
    reqBase := fun hp => absurd hp (not_or.mpr ⟨hne rfl, hne rfl⟩)
    notifyFirst := fun hp => absurd hp (hne rfl) }

/-- R352: every load error leaves a state of the invariant, whatever the load had come to. -/
theorem State.Standing.inv_raiseLoadError (h : s.Standing) (e : LoadError) : (raiseLoadError e s).Inv :=
  State.Standing.inv_of_released { h with } rfl rfl rfl rfl (fun hp => absurd rfl hp)
    (fun _ => ⟨e, rfl, rfl, fun he => if_neg he⟩) (fun hp => by cases hp)

/-- R157: ABORT leaves a state of the invariant. -/
theorem State.Standing.inv_abortLoad (h : s.Standing) : (abortLoad s).Inv :=
  State.Standing.inv_of_released { h with frameIdxRange := Nat.zero_le _ } rfl rfl rfl rfl
    (fun _ => ⟨rfl, rfl, rfl⟩) (fun hp => by cases hp) (fun _ => rfl)

/-- R390: the reset input leaves a state of the invariant. -/
theorem State.Standing.inv_resetInput (h : s.Standing) : (resetInput s).Inv :=
  State.Standing.inv_of_released
    { dest := h.dest, cmdErrNone := fun _ => rfl, cmdErrSome := fun hc => (by cases hc), frameIdxRange := Nat.zero_le _ }
    rfl rfl rfl rfl (fun _ => ⟨rfl, rfl, rfl⟩) (fun hp => by cases hp) (fun _ => rfl)

/-- R320: the end of a load that has recorded no error leaves a state of the invariant. -/
theorem State.Inv.finished (h : s.Inv) (hp : s.phase ≠ .failed) : (finishLoad s).Inv :=
  State.Standing.inv_of_released { h.standing with } rfl rfl rfl rfl (fun _ => h.errNone hp) (fun hp => by cases hp)
    (fun hp => by cases hp)

/-- R155: LOAD_BEGIN starts with an empty buffer of ACC_INIT_CAPACITY. -/
theorem State.Standing.inv_beginLoad (h : s.Standing) : (beginLoad s).Inv where
  accCanonical := Memory.wf_nil
  destCanonical := h.dest.1
  destInSpace := h.dest.2
  accListed := rfl
  sizeFits := Nat.zero_le _
  capacity := (doubleUntil_of_le (Nat.zero_le _)).symm
  capWithin := rfl
  cmdErrNone := h.cmdErrNone
  cmdErrSome := h.cmdErrSome
  errNone := fun _ => ⟨rfl, rfl, rfl⟩
  errSome := fun hp => by cases hp
  frameIdxRange := Nat.zero_le _
  frameIdxStart := fun _ => rfl
  payStart0 := fun _ => ⟨rfl, rfl⟩
  located := fun hl => by cases hl
  pending := fun hf => by cases hf
  accepted := fun hb => by cases hb
  reqBase := fun hp => by simp at hp
  notifyFirst := fun hp => by cases hp

/-! ### The accumulation -/

/-- R152, R153: a push that is accepted keeps ACC_MEM listed up to ACC_SIZE and the capacity at the first doubling. -/
theorem State.Inv.pushed (h : s.Inv) (bs : List Byte) {cap : Nat} (hp : s.phase = .accum)
    (hg : grow Config.accHeadroom.val (s.accSize.toNat + bs.length) s.accCap.toNat = .ok cap) :
    { s with
      accMem := s.accMem.writeList s.accSize.toNat bs
      accSize := BitVec.ofNat 32 (s.accSize.toNat + bs.length)
      accCap := BitVec.ofNat 32 cap }.Inv := by
  obtain ⟨hcap, hfit, hmax⟩ := grow_eq_ok hg
  have hlt : cap < 2 ^ 32 := lt_of_withinMax hmax
  have hsizeNat : (BitVec.ofNat 32 (s.accSize.toNat + bs.length)).toNat = s.accSize.toNat + bs.length := by
    rw [BitVec.toNat_ofNat, Nat.mod_eq_of_lt (by omega)]
  have hcapNat : (BitVec.ofNat 32 cap).toNat = cap := by rw [BitVec.toNat_ofNat, Nat.mod_eq_of_lt hlt]
  have hholds : s.phase.holdsBuffer = true := by rw [hp]; rfl
  have hdouble : cap = doubleUntil doublingTurns (s.accSize.toNat + bs.length) Config.accInitCapacity := by
    rw [h.capacity_of_holdsBuffer hholds] at hcap
    rw [hcap] at hfit ⊢
    exact doubleUntil_doubleUntil (by decide) (Nat.le_add_right ..) (by omega) hfit
  exact { h with
    accCanonical := Memory.wf_writeList h.accCanonical _ _
    accListed := by simpa only [hsizeNat] using Memory.writeList_listed h.accListed bs
    sizeFits := by simpa only [hsizeNat, hcapNat] using hfit
    capacity := by simpa only [hsizeNat, hcapNat, hholds, if_true] using hdouble
    capWithin := by simpa only [hcapNat] using hmax
    located := fun hl => absurd hp (Phase.ne_of_inLoop hl rfl)
    pending := fun hf => absurd hp (Phase.ne_of_inLoop (Phase.inLoop_of_inFrame hf) rfl) }

/-- R156: LOAD_END closes the accumulation. -/
theorem State.Inv.loadEnded (h : s.Inv) (hp : s.phase = .accum) : { s with phase := .parse }.Inv :=
  { h with
    capacity := h.capacity_of_holdsBuffer (by rw [hp]; rfl)
    errNone := fun _ => h.errNone (by simp [hp])
    errSome := fun hq => by cases hq
    frameIdxStart := fun _ => h.frameIdxStart (.inr (.inl hp))
    payStart0 := fun _ => h.payStart0 (.inl hp)
    located := fun hl => by cases hl
    pending := fun hf => by cases hf
    accepted := fun hb => by cases hb
    reqBase := fun hq => by simp at hq
    notifyFirst := fun hq => by cases hq }

/-! ### The frame loop -/

/-- R206, R311: payload location puts the payload at the end of the file and enters the frame loop at frame 0. -/
theorem State.Inv.parsed (h : s.Inv) {hd : Hdr} {f : Format} (hp : s.phase = .parse) (hframes : hd.frames ≠ 0)
    (htag : Format.ofTag hd.format = some f)
    (hle : ({ s with hdr := hd }.geometry f).total ≤ s.accSize.toNat) :
    { s with
      hdr := hd
      payTotal := BitVec.ofNat 32 ({ s with hdr := hd }.geometry f).total
      payStart := BitVec.ofNat 32 (s.accSize.toNat - ({ s with hdr := hd }.geometry f).total)
      frameIdx := 0
      phase := .frameStart }.Inv := by
  have hsize := s.accSize.isLt
  have hnat : ∀ n ≤ s.accSize.toNat, (BitVec.ofNat 32 n).toNat = n := fun n hn => by
    rw [BitVec.toNat_ofNat, Nat.mod_eq_of_lt (by omega)]
  exact { h with
    capacity := h.capacity_of_holdsBuffer (by rw [hp]; rfl)
    errNone := fun _ => h.errNone (by simp [hp])
    errSome := fun hq => by cases hq
    frameIdxRange := Nat.zero_le _
    frameIdxStart := fun _ => rfl
    payStart0 := fun hq => by simp at hq
    located := fun _ => ⟨hframes, Nat.zero_le _, f, htag, hnat _ hle, by
      rw [hnat _ hle, hnat _ (Nat.sub_le ..), Nat.sub_add_cancel hle]⟩
    pending := fun hf => by cases hf
    accepted := fun hb => by cases hb
    reqBase := fun hq => by simp at hq
    notifyFirst := fun hq => by cases hq }

/-- What the invariant says of a frame under way: it is one of the file's, its source bytes are there, and the request
registers describe it (spec/45_frame_dispatcher.md R312, R313). -/
def State.frameDescribed (s : State) : Prop :=
  s.frameIdx.toNat < s.hdr.frames.toNat ∧
    (∀ f, Format.ofTag s.hdr.format = some f → frameInRange (s.geometry f) s) ∧
    s.req.width = s.hdr.width ∧ s.req.height = s.hdr.height ∧ s.req.hasAlpha = s.hdr.hasAlpha ∧
    s.req.frame.toNat = s.frameIdx.toNat ∧ s.req.seq = s.seqHandle

/-- What the invariant says of an accepted frame buffer (spec/45_frame_dispatcher.md R314). -/
def State.bufferAccepted (s : State) : Prop :=
  leastStride s.hdr ≤ s.fb.stride.toNat ∧ needBytes s.hdr s.fb.stride.toNat ≤ s.fb.size.toNat ∧
    s.fb.base.toNat + s.fb.size.toNat ≤ 2 ^ 64 ∧ s.fb.nch.toNat = s.hdr.nch

/-- A move inside the frame loop bears on FRAME_IDX, the request registers and the frame-buffer latch only. -/
theorem State.Inv.moved (h : s.Inv) (hl : s.phase.inLoop = true) {ph : Phase} {idx : Word} {r : Req} {b : Fb}
    (hl' : ph.inLoop = true) (hidx : idx.toNat ≤ s.hdr.frames.toNat)
    (hpending : ph.inFrame = true → { s with frameIdx := idx, req := r }.frameDescribed)
    (haccepted : ph.hasFrameBuffer = true → { s with fb := b }.bufferAccepted)
    (hbase : ph = .notifyWait ∨ ph = .appendWait → r.base = b.base) (hfirst : ph = .notifyWait → idx = 0) :
    { s with phase := ph, frameIdx := idx, req := r, fb := b }.Inv := by
  have hne : ∀ {q : Phase}, q.inLoop = false → ph ≠ q := Phase.ne_of_inLoop hl'
  obtain ⟨hframes, -, hpayload⟩ := h.located hl
  exact { h with
    capacity := (h.capacity_of_holdsBuffer (Phase.holdsBuffer_of_inLoop hl)).trans
      (if_pos (Phase.holdsBuffer_of_inLoop hl')).symm
    errNone := fun _ => h.errNone (Phase.ne_of_inLoop hl rfl)
    errSome := fun hp => absurd hp (hne rfl)
    frameIdxRange := by have := s.hdr.frames.isLt; simp only; omega
    frameIdxStart := fun hp => absurd hp (not_or.mpr ⟨hne rfl, not_or.mpr ⟨hne rfl, hne rfl⟩⟩)
    payStart0 := fun hp => absurd hp (not_or.mpr ⟨hne rfl, hne rfl⟩)
    located := fun _ => ⟨hframes, hidx, hpayload⟩
    pending := hpending
    accepted := haccepted
    reqBase := hbase
    notifyFirst := hfirst }

/-- A request describes the frame it is raised for; its 16 bits hold FRAME_IDX. -/
theorem State.frameDescribed_of_requested (hlt : s.frameIdx.toNat < s.hdr.frames.toNat)
    (hrange : ∀ f, Format.ofTag s.hdr.format = some f → frameInRange (s.geometry f) s) (base : BitVec 64) :
    { s with req := s.requestOf base }.frameDescribed := by
  refine ⟨hlt, hrange, rfl, rfl, rfl, ?_, rfl⟩
  have hframes := s.hdr.frames.isLt
  simp only [requestOf, BitVec.toNat_setWidth]
  exact Nat.mod_eq_of_lt (by omega)

/-- R312, R313: ALLOC is raised for a frame of the file whose source bytes are there. -/
theorem State.Inv.allocRaised (h : s.Inv) {f : Format} (hp : s.phase = .frameStart)
    (hne : s.frameIdx.toNat ≠ s.hdr.frames.toNat) (htag : Format.ofTag s.hdr.format = some f)
    (hrange : frameInRange (s.geometry f) s) : (requestAlloc s).Inv := by
  have hl : s.phase.inLoop = true := by rw [hp]; rfl
  obtain ⟨-, hle, -⟩ := h.located hl
  refine h.moved hl (idx := s.frameIdx) (b := s.fb) rfl hle (fun _ => ?_) (fun hb => by cases hb)
    (fun hq => by simp at hq) (fun hq => by cases hq)
  exact frameDescribed_of_requested (by omega) (fun f' hf' => by rw [htag] at hf'; cases hf'; exact hrange) 0

/-- R313: a request of a frame whose buffer has been accepted names that buffer. -/
theorem State.Inv.requestOfBuffer (h : s.Inv) (hb : s.phase.hasFrameBuffer = true) (hf : s.phase.inFrame = true)
    {ph : Phase} (hl' : ph.inLoop = true) (hfirst : ph = .notifyWait → s.frameIdx = 0) :
    (raiseRequest ph s.fb.base s).Inv := by
  obtain ⟨hlt, hrange, -⟩ := h.pending hf
  exact h.moved (Phase.inLoop_of_inFrame hf) hl' (Nat.le_of_lt hlt)
    (fun _ => frameDescribed_of_requested hlt hrange s.fb.base) (fun _ => h.accepted hb) (fun _ => rfl) hfirst

/-- R316: after DECODE comes NOTIFY for frame 0, APPEND for any other. -/
theorem State.Inv.decoded (h : s.Inv) (hp : s.phase = .decode) : (requestDecoded s).Inv := by
  unfold requestDecoded
  split
  · next h0 => exact h.requestOfBuffer (by rw [hp]; rfl) (by rw [hp]; rfl) rfl (fun _ => h0)
  · exact h.requestOfBuffer (by rw [hp]; rfl) (by rw [hp]; rfl) rfl (fun hq => by cases hq)

/-- R314: an ALLOC that is acknowledged with a buffer passing the checks latches that buffer. -/
theorem State.Inv.allocAccepted (h : s.Inv) (hp : s.phase = .allocWait)
    (hstride : leastStride s.hdr ≤ s.rsp.stride.toNat)
    (hsize : needBytes s.hdr s.rsp.stride.toNat ≤ s.rsp.size.toNat)
    (hend : s.rsp.base.toNat + s.rsp.size.toNat ≤ 2 ^ 64) :
    { s with
      fb := ⟨s.rsp.base, s.rsp.stride, s.rsp.size, BitVec.ofNat 3 s.hdr.nch⟩
      phase := .decode }.Inv := by
  have hl : s.phase.inLoop = true := by rw [hp]; rfl
  have hpending := h.pending (by rw [hp]; rfl)
  have hnch : (BitVec.ofNat 3 s.hdr.nch).toNat = s.hdr.nch := by
    unfold Hdr.nch; cases s.hdr.hasAlpha <;> rfl
  exact h.moved hl (idx := s.frameIdx) (r := s.req) rfl (Nat.le_of_lt hpending.1) (fun _ => hpending)
    (fun _ => ⟨hstride, hsize, hend, hnch⟩) (fun hq => by simp at hq) (fun hq => by cases hq)

/-- R318: an APPEND that is acknowledged goes on to the next frame. -/
theorem State.Inv.appendAcked (h : s.Inv) (hp : s.phase = .appendWait) :
    { s with frameIdx := s.frameIdx + 1, phase := .frameStart }.Inv := by
  have hl : s.phase.inLoop = true := by rw [hp]; rfl
  obtain ⟨hlt, -⟩ := h.pending (by rw [hp]; rfl)
  have hframes := s.hdr.frames.isLt
  have hnext : (s.frameIdx + 1).toNat = s.frameIdx.toNat + 1 := by
    rw [BitVec.toNat_add]; exact Nat.mod_eq_of_lt (by simp; omega)
  exact h.moved hl (r := s.req) (b := s.fb) rfl (by omega) (fun hf => by cases hf) (fun hb => by cases hb)
    (fun hq => by simp at hq) (fun hq => by cases hq)

/-! ### The host's stores -/

/-- What a store can change: by R21 IE and the response registers in every phase, the configuration, the header latch
and the operands of the commands otherwise; STATUS clears the command error (R25). -/
theorem writeField_cases (r : Reg) (v : Word) (s : State) :
    writeField r v s = clearCmdError s ∨
    (∃ ie rsp, writeField r v s = { s with ie := ie, rsp := rsp }) ∨
    (regAnyPhase r = false ∧ ∃ edgeCfg seqHandle hdr vac blkIn pixIn,
      writeField r v s = { s with
        edgeCfg := edgeCfg, seqHandle := seqHandle, hdr := hdr, vac := vac, blkIn := blkIn, pixIn := pixIn }) := by
  cases r with
  | status =>
    by_cases h4 : v.getLsbD 4 = true
    · exact .inl (if_pos h4)
    · exact .inr (.inl ⟨s.ie, s.rsp, if_neg h4⟩)
  | ie | rspBaseLo | rspBaseHi | rspStride | rspSizeLo | rspSizeHi | rspCtrl | cmd => exact .inr (.inl ⟨_, _, rfl⟩)
  | _ => exact .inr (.inr ⟨rfl, _, _, _, _, _, _, rfl⟩)

theorem State.Inv.stored (h : s.Inv) {r : Reg} (v : Word) (hr : s.busy = false ∨ regAnyPhase r = true) :
    (writeField r v s).Inv := by
  rcases writeField_cases r v s with heq | ⟨ie, rsp, heq⟩ | ⟨hany, _, _, _, _, _, _, heq⟩ <;> rw [heq]
  · exact { h with cmdErrNone := fun _ => rfl, cmdErrSome := fun hc => by cases hc }
  · exact { h with }
  · have hloop : s.phase.inLoop ≠ true := by
      simp [Phase.inLoop_of_busy_false (hr.resolve_right (by simp [hany]))]
    exact { h with
      located := fun hl => absurd hl hloop
      pending := fun hf => absurd (Phase.inLoop_of_inFrame hf) hloop
      accepted := fun hb => absurd (Phase.inLoop_of_hasFrameBuffer hb) hloop }

end Parts

/-! ### Every change -/

/-- Each change that a step can make keeps the invariant. -/
theorem Effect.keeps_inv {s t : State} (he : Effect s t) (h : s.Inv) : t.Inv := by
  cases he with
  | same => exact h
  | cmdError e => exact { h with cmdErrNone := fun hc => (by cases hc), cmdErrSome := fun _ => ⟨e, rfl⟩ }
  | stored r v hr => exact h.stored v hr
  | readBack w => exact { h with }
  | memWritten a b => exact h.withDest (Memory.inSpace_keptByWrites a.toNat a.isLt b _ h.dest_inSpace)
  | wasReset => exact h.standing.inv_resetInput
  | result n => exact { h with }
  | pixel w => exact { h with }
  | tile v => exact { h with }
  | begun _ _ => exact h.standing.inv_beginLoad
  | ended hp => exact h.loadEnded hp
  | aborted => exact h.standing.inv_abortLoad
  | pushed bs cap hp _ hg => exact h.pushed bs hp hg
  | pushFailed _ => exact h.standing.inv_raiseLoadError _
  | allocRefused e _ _ => exact h.standing.inv_raiseLoadError e
  | allocAccepted hp hstride hsize hend => exact h.allocAccepted hp hstride hsize hend
  | notifyAcked hp => exact h.requestOfBuffer (by rw [hp]; rfl) (by rw [hp]; rfl) rfl (fun hq => by cases hq)
  | appendAcked hp => exact h.appendAcked hp
  | headerShort _ => exact h.standing.inv_raiseLoadError _
  | headerBad hd e _ =>
    have hs : { s with hdr := hd }.Standing := { h.standing with }
    exact hs.inv_raiseLoadError e
  | parsed hd f hp hframes htag hle => exact h.parsed hp hframes htag hle
  | finished hp _ => exact h.finished (by simp [hp])
  | frameBad e _ => exact h.standing.inv_raiseLoadError e
  | allocRaised f hp hne htag hrange => exact h.allocRaised hp hne htag hrange
  | decodeUnsupported _ _ => exact h.standing.inv_raiseLoadError _
  | decodeStopped f m _ _ hd =>
    have hm : m.inSpace := decodeFrame_keeps Memory.inSpace_keptByWrites h.dest_inSpace (by rw [hd]; rfl)
    exact (h.withDest hm).standing.inv_raiseLoadError _
  | decoded f m hp _ hd =>
    have hm : m.inSpace := decodeFrame_keeps Memory.inSpace_keptByWrites h.dest_inSpace (by rw [hd]; rfl)
    exact (h.withDest hm).decoded hp

/-- Settles O51: by `step_effect` a step is one of the changes, each of which keeps the invariant; the list of inputs
and `readData`, which `step_effect` moves on first, are in no part of it. -/
theorem everyStepKeepsTheInvariant : Obligations.EveryStepKeepsTheInvariant := by
  intro s t h hstep
  obtain ⟨inputs, readData, he⟩ := step_effect hstep
  exact he.keeps_inv { h with }

end Sys2Proof.Machine
end

section
/-! PROOFS. The register map as data: every register, its class and its offset (spec/10_state.md R20 to R50). -/

namespace Sys2Proof.Machine

/-- The list of registers is complete. -/
theorem Reg.mem_all (r : Reg) : r ∈ Reg.all := List.mem_of_find?_eq_some (Reg.ofOffset_offset r)

/-- What holds of every entry of the list of registers holds of every register. -/
theorem Reg.forall_of_all {p : Reg → Prop} (h : ∀ r ∈ Reg.all, p r) (r : Reg) : p r := h r (Reg.mem_all r)

/-- No two registers have one offset. -/
theorem Reg.offset_injective {r r' : Reg} (h : r.offset = r'.offset) : r = r' :=
  Option.some.inj (by rw [← Reg.ofOffset_offset r, h, Reg.ofOffset_offset])

/-- Settles O7. The rows of each class are checked over the list of all registers; that no two share an offset is that
the register at an offset is found there. -/
theorem registerMapIsTheSpecs : Obligations.RegisterMapIsTheSpecs :=
  ⟨Reg.forall_of_all (by decide), Reg.forall_of_all (by decide), Reg.forall_of_all (by decide),
    Reg.forall_of_all (by decide), fun _ _ => Reg.offset_injective⟩

end Sys2Proof.Machine
end

section
/-! PROOFS. Host reads: what each offset returns, and that a read changes nothing (spec/10_state.md R20 to R50). -/

namespace Sys2Proof.Machine

/-- A read at a register's offset reads that register. -/
theorem readOffset_offset (r : Reg) (s : State) : readOffset r.offset s = readReg r s := by
  simp only [readOffset, Reg.ofOffset_offset]

/-- Registers read at a list of offsets read as themselves. -/
theorem readOffset_rows (rs : List Reg) (s : State) :
    ∀ row ∈ rs.map fun r => (r.offset, readReg r s), readOffset row.1 s = row.2 := by
  simp only [List.forall_mem_map]
  exact fun r _ => readOffset_offset r s

/-- A field with 0 above it is the field extended. -/
theorem zero_append_eq_setWidth (k : Nat) {n : Nat} (x : BitVec n) : 0#k ++ x = x.setWidth (k + n) := by
  ext i hi
  simp only [BitVec.getElem_append, BitVec.getElem_zero, BitVec.getElem_setWidth]
  split
  · next h => rw [BitVec.getLsbD_eq_getElem h]
  · next h => exact (BitVec.getLsbD_of_ge _ _ (Nat.le_of_not_lt h)).symm

theorem hostRead_of_aligned {offset : BitVec 12} (h : offset.toNat % 4 = 0) (s : State) :
    hostRead offset s = .next { s with readData := readOffset offset s } := by
  simp [hostRead, offsetAligned, h]

/-- The read of an offset does not depend on the model's own list of inputs. -/
theorem readOffset_inputs (offset : BitVec 12) (s : State) (rest : List Input) :
    readOffset offset { s with inputs := rest } = readOffset offset s := by
  unfold readOffset
  cases Reg.ofOffset offset with
  | none => rfl
  | some r => cases r <;> rfl

/-- R20: write-only registers read 0. -/
theorem readReg_wo {r : Reg} (h : regAccess r = .wo) (s : State) : readReg r s = 0 := by
  cases r <;> first | rfl | cases h

/-- The write-only registers, at their offsets, read 0. -/
theorem readOffset_wo (s : State) :
    ∀ offset ∈ [Reg.cmd, .stream1, .stream2, .stream3, .stream4, .rspCtrl].map Reg.offset, readOffset offset s = 0 := by
  simp only [List.forall_mem_map]
  intro r hr
  have hwo : regAccess r = .wo := by
    revert r
    decide
  exact (readOffset_offset r s).trans (readReg_wo hwo s)

/-- Settles O11: the step by R100, the constants and the write-only registers by what their offsets read. -/
theorem readsChangeNothing : Obligations.ReadsChangeNothing := by
  refine ⟨fun s offset rest hin hal => ?_, fun s => ?_⟩
  · simp only [step, hin, hostRead_of_aligned hal, readOffset_inputs]
  · exact ⟨readOffset_offset .id s, readOffset_offset .seqParams s, readOffset_wo s⟩

/-- The registers that O60 lists, in its order. -/
def plainRegisters : List Reg :=
  [.cmderr, .errcode, .errtag, .ie, .edgeCfg, .seqHandle, .accSize, .accCap, .hdrSig, .hdrVerMajor, .hdrVerMinor,
   .hdrHeadersize, .hdrWidth, .hdrHeight, .hdrFlags, .hdrFrames, .hdrFirstframe, .hdrRefl0, .hdrRefl1, .hdrRefl2,
   .hdrBumpscale, .hdrFormat, .hdrMipcount, .hdrLrFormat, .hdrLrWidth, .hdrLrHeight, .hdrDepthRaw, .payStart,
   .payTotal, .frameIdx, .vacFrame, .vacFace, .vacSlice, .vacMip, .vacResLo, .vacResHi, .pixIn, .pixOut, .reqWidth,
   .reqHeight, .reqFlags, .reqFrame, .reqSeq, .reqBaseLo, .reqBaseHi, .rspBaseLo, .rspBaseHi, .rspStride, .rspSizeLo,
   .rspSizeHi, .fbBaseLo, .fbBaseHi, .fbStride, .fbSizeLo, .fbSizeHi, .fbNch]

/-- The offsets of the tile registers go up by 4. -/
theorem blkIn_offset (k : Fin 4) : (Reg.blkIn k).offset = 0x100#12 + 4#12 * BitVec.ofNat 12 k.val := by
  revert k; decide

theorem blkOut_offset (k : Fin 16) : (Reg.blkOut k).offset = 0x140#12 + 4#12 * BitVec.ofNat 12 k.val := by
  revert k; decide

/-- Settles O60: its rows are the offsets and the reads of `plainRegisters`. -/
theorem offsetsReadTheirRegisters : Obligations.OffsetsReadTheirRegisters := by
  refine fun s => ⟨?_, fun k => ?_, fun k => ?_⟩
  · simp only [zero_append_eq_setWidth]
    have h := readOffset_rows plainRegisters s
    simp only [plainRegisters, List.map, Reg.offset, readReg, zero_append_eq_setWidth] at h
    exact h
  · rw [← blkIn_offset]; exact readOffset_offset (.blkIn k) s
  · rw [← blkOut_offset]; exact readOffset_offset (.blkOut k) s

/-- Settles O14: HDR_DEPTH reads as `Hdr.depth`, extended; after reset the version is 0. -/
theorem effectiveDepthFollowsTheVersion : Obligations.EffectiveDepthFollowsTheVersion := by
  have hread : ∀ s : State, readOffset 0x0AC#12 s =
      if s.hdr.verMajor.toNat * 256 + s.hdr.verMinor.toNat < 1794 then 1#32 else 0#16 ++ s.hdr.depthRaw := fun s => by
    rw [show readOffset 0x0AC#12 s = s.hdr.depth.setWidth 32 from readOffset_offset .hdrDepth s]
    unfold Hdr.depth Hdr.version
    split
    · rfl
    · exact (zero_append_eq_setWidth 16 _).symm
  exact ⟨hread, (hread _).trans (if_pos (by decide))⟩

end Sys2Proof.Machine
end

section
/-! PROOFS. Host writes to the plain registers: what a store stores, what it leaves, and when it is refused
(spec/10_state.md R20, R21, R25, R38, R52). -/

namespace Sys2Proof.Machine

/-- The registers whose writes are instructions are the write-only ones. -/
theorem carriesInstr_of_ne_wo {r : Reg} (h : regAccess r ≠ .wo) : r.carriesInstr = false := by
  cases r <;> first | rfl | exact absurd rfl h

/-- A write to any register but a write-only one is a store. -/
theorem hostWrite_store {r : Reg} (h : regAccess r ≠ .wo) (v : Word) (s : State) :
    hostWrite (.to r v) s = .next (storeReg r v s) := by
  simp only [hostWrite, decode_to_store _ v (carriesInstr_of_ne_wo h)]

/-- A write that R21 accepts stores the value in the register's field. -/
theorem hostWrite_accepted {r : Reg} (hr : regAccess r ≠ .wo) (v : Word) {s : State}
    (h : s.busy = false ∨ regAnyPhase r = true) : hostWrite (.to r v) s = .next (writeField r v s) := by
  rw [hostWrite_store hr]
  rcases storeReg_cases r v s with ⟨⟨hb, ha⟩, -⟩ | ⟨-, heq⟩
  · simp [hb, ha] at h
  · rw [heq]

/-- A write that R21 does not accept reports BUSY. -/
theorem hostWrite_busy {r : Reg} (hr : regAccess r ≠ .wo) (v : Word) {s : State} (hb : s.busy = true)
    (ha : regAnyPhase r = false) : hostWrite (.to r v) s = .next (raiseCmdError .busy s) := by
  rw [hostWrite_store hr, storeReg, hb, ha]
  rfl

/-- Cutting a value to its low bits is masking it. -/
theorem setWidth_setWidth_eq_and {k : Nat} (v : Word) :
    (v.setWidth k).setWidth 32 = v &&& (BitVec.allOnes k).setWidth 32 := by
  ext i hi
  simp [hi, Bool.and_comm]

theorem loHalf_setLoHalf (x : BitVec 64) (v : Word) : loHalf (setLoHalf x v) = v := BitVec.extractLsb'_append_eq_right
theorem hiHalf_setLoHalf (x : BitVec 64) (v : Word) : hiHalf (setLoHalf x v) = hiHalf x :=
  BitVec.extractLsb'_append_eq_left
theorem loHalf_setHiHalf (x : BitVec 64) (v : Word) : loHalf (setHiHalf x v) = loHalf x :=
  BitVec.extractLsb'_append_eq_right
theorem hiHalf_setHiHalf (x : BitVec 64) (v : Word) : hiHalf (setHiHalf x v) = v := BitVec.extractLsb'_append_eq_left

/-- R20, R38: an RW register reads back what was stored, cut to its defined bits. -/
theorem readReg_writeField_same {r : Reg} (h : regAccess r = .rw) (v : Word) (s : State) :
    readReg r (writeField r v s) = v &&& regMask r := by
  have hall : v = v &&& 0xFFFFFFFF#32 := (BitVec.and_allOnes (x := v)).symm
  cases r with
  | ie | edgeCfg | hdrWidth | hdrHeight | hdrFrames | hdrFirstframe | hdrDepthRaw | hdrMipcount | hdrLrWidth |
    hdrLrHeight => exact setWidth_setWidth_eq_and v
  | blkIn k => exact (Vector.getElem_set_self k.isLt).trans hall
  | rspBaseLo | rspSizeLo => exact (loHalf_setLoHalf _ v).trans hall
  | rspBaseHi | rspSizeHi => exact (hiHalf_setHiHalf _ v).trans hall
  | _ => first | cases h; done | exact hall

/-- R20: a store leaves every other register as it was, but HDR_DEPTH, which follows the header latch (R39). -/
theorem readReg_writeField_other {r r' : Reg} (h : regAccess r = .rw) (hne : r' ≠ r) (hdepth : r' ≠ .hdrDepth)
    (v : Word) (s : State) : readReg r' (writeField r v s) = readReg r' s := by
  cases r with
  | blkIn k =>
    cases r' with
    | blkIn k' => exact Vector.getElem_set_ne k.isLt k'.isLt fun he => hne (congrArg Reg.blkIn (Fin.ext he.symm))
    | _ => rfl
  | rspBaseLo =>
    cases r' with
    | rspBaseLo => exact absurd rfl hne
    | rspBaseHi => exact hiHalf_setLoHalf _ v
    | _ => rfl
  | rspBaseHi =>
    cases r' with
    | rspBaseLo => exact loHalf_setHiHalf _ v
    | rspBaseHi => exact absurd rfl hne
    | _ => rfl
  | rspSizeLo =>
    cases r' with
    | rspSizeLo => exact absurd rfl hne
    | rspSizeHi => exact hiHalf_setLoHalf _ v
    | _ => rfl
  | rspSizeHi =>
    cases r' with
    | rspSizeLo => exact loHalf_setHiHalf _ v
    | rspSizeHi => exact absurd rfl hne
    | _ => rfl
  | _ => first | cases h; done | (cases r' <;> first | contradiction | rfl)

/-- A store changes no memory and nothing of the model's own. -/
theorem writeField_keeps (r : Reg) (v : Word) (s : State) :
    (writeField r v s).accMem = s.accMem ∧ (writeField r v s).dest = s.dest ∧
      (writeField r v s).inputs = s.inputs ∧ (writeField r v s).readData = s.readData := by
  rcases writeField_cases r v s with heq | ⟨_, _, heq⟩ | ⟨-, _, _, _, _, _, _, heq⟩ <;> rw [heq] <;>
    exact ⟨rfl, rfl, rfl, rfl⟩

/-- A store to an RW register does not touch the command error. -/
theorem writeField_rw_keeps_cmdError {r : Reg} (h : regAccess r = .rw) (v : Word) (s : State) :
    (writeField r v s).cerr = s.cerr ∧ (writeField r v s).cmdErr = s.cmdErr := by
  cases r <;> first | exact ⟨rfl, rfl⟩ | cases h

/-- Settles O6: an accepted store is `writeField`, whose reads are told for the same and for another register. -/
theorem plainStoreReadsBackAndNothingElseChanges : Obligations.PlainStoreReadsBackAndNothingElseChanges :=
  fun r v s hrw hacc => ⟨_, hostWrite_accepted (by simp [hrw]) v hacc, readReg_writeField_same hrw v s,
    fun _ hne hdepth => readReg_writeField_other hrw hne hdepth v s, writeField_keeps r v s⟩

/-- STREAM1 to STREAM4, the write-only registers outside R21's nine, refuse their write while BUSY
(spec/40_accumulator.md R152). -/
theorem hostWrite_stream_busy {r : Reg} (h : r ∈ [Reg.stream1, .stream2, .stream3, .stream4]) (v : Word) {s : State}
    (hb : s.busy = true) : hostWrite (.to r v) s = .next (raiseCmdError .busy s) := by
  have hpush : ∀ bs, pushBytes bs s = .next (raiseCmdError .busy s) := fun _ => unlessBusy_busy hb _
  fin_cases h
  · exact (hostWrite_of_decode_run (decode_to_stream1 _ v)).trans (hpush _)
  · exact (hostWrite_of_decode_run (decode_to_stream2 _ v)).trans (hpush _)
  · exact (hostWrite_of_decode_run (decode_to_stream3 _ v)).trans (hpush _)
  · exact (hostWrite_of_decode_run (decode_to_stream4 _ v)).trans (hpush _)

/-- The nine registers of R21 are those that `regAnyPhase` names. -/
theorem regAnyPhase_eq_false_of_not_mem {r : Reg}
    (h : r ∉ [Reg.status, .ie, .rspBaseLo, .rspBaseHi, .rspStride, .rspSizeLo, .rspSizeHi, .rspCtrl, .cmd]) :
    regAnyPhase r = false := by
  cases r <;> first | rfl | exact absurd (by decide) h

/-- A write-only register outside R21's nine is one of STREAM1 to STREAM4. -/
theorem mem_streams_of_wo {r : Reg} (hwo : regAccess r = .wo) (hany : regAnyPhase r = false) :
    r ∈ [Reg.stream1, .stream2, .stream3, .stream4] := by
  cases r <;> first | cases hwo; done | cases hany; done | decide

/-- Settles O8: the RW registers of R21 are accepted; the others are plain registers or STREAM1 to STREAM4. -/
theorem busyWritesAreDropped : Obligations.BusyWritesAreDropped := by
  constructor
  · intro r v s hr
    obtain ⟨hrw, hany⟩ : regAccess r = .rw ∧ regAnyPhase r = true := by
      revert r
      decide
    exact ⟨_, hostWrite_accepted (by simp [hrw]) v (.inr hany), readReg_writeField_same hrw v s,
      writeField_rw_keeps_cmdError hrw v s⟩
  · intro r v s hb _ hr
    have hany := regAnyPhase_eq_false_of_not_mem hr
    by_cases hwo : regAccess r = .wo
    · exact hostWrite_stream_busy (mem_streams_of_wo hwo hany) v hb
    · exact hostWrite_busy hwo v hb hany

/-- Settles O10, by the decoder at an unassigned offset and by `storeReg_ro` at a read-only register. -/
theorem unassignedAndReadOnlyWritesAreIgnored : Obligations.UnassignedAndReadOnlyWritesAreIgnored := by
  constructor
  · intro offset v s hal hnone
    have hof : Reg.ofOffset offset = none := by
      cases hr : Reg.ofOffset offset with
      | none => rfl
      | some r => exact absurd (Reg.offset_of_ofOffset hr) (hnone r)
    have hdec : decode s.phase.reqType ⟨offset, v⟩ = .unmapped :=
      decode_unmapped _ (by simp [offsetAligned, hal]) hof
    simp only [hostWrite, readOffset, hdec, hof, true_and]
    rfl
  · intro r v s hro
    rw [hostWrite_store (by simp [hro]), storeReg_ro hro]
    rfl

/-- Settles O13: R21 accepts a write of STATUS in every phase. -/
theorem statusWriteClearsTheCommandError : Obligations.StatusWriteClearsTheCommandError := by
  intro v s
  constructor
  · exact (readOffset_offset .cmderr s).trans (zero_append_eq_setWidth 28 s.cmdErr).symm
  · exact hostWrite_accepted (r := .status) (by decide) v (.inr rfl)

end Sys2Proof.Machine
end

section
/-! PROOFS. STATUS and `irq` field by field (spec/10_state.md R24, spec/60_exceptions.md R361). -/

namespace Sys2Proof.Machine

/-- A flag placed below a field is bit 0. -/
theorem getLsbD_append_ofBool_zero {n : Nat} (x : BitVec n) (b : Bool) : (x ++ BitVec.ofBool b).getLsbD 0 = b := by
  rw [BitVec.getLsbD_append]
  simp

/-- A flag placed below a field moves the field's bits up by one. -/
theorem getLsbD_append_ofBool_succ {n : Nat} (x : BitVec n) (b : Bool) (i : Nat) :
    (x ++ BitVec.ofBool b).getLsbD (i + 1) = x.getLsbD i := by
  simp [BitVec.getLsbD_append]

/-- The same of a whole field above six flags. -/
theorem extractLsb'_append_ofBool_six {n : Nat} (x : BitVec n) (b5 b4 b3 b2 b1 b0 : Bool) (i len : Nat) :
    (x ++ BitVec.ofBool b5 ++ BitVec.ofBool b4 ++ BitVec.ofBool b3 ++ BitVec.ofBool b2 ++ BitVec.ofBool b1
      ++ BitVec.ofBool b0).extractLsb' (i + 6) len = x.extractLsb' i len := by
  ext j hj
  simp only [BitVec.getElem_extractLsb', show i + 6 + j = i + j + 1 + 1 + 1 + 1 + 1 + 1 by omega,
    getLsbD_append_ofBool_succ]

section Status
variable (s : State)

theorem statusWord_getLsbD_0 : (statusWord s).getLsbD 0 = s.busy := getLsbD_append_ofBool_zero _ _

theorem statusWord_getLsbD_1 : (statusWord s).getLsbD 1 = s.doneFlag :=
  (getLsbD_append_ofBool_succ _ _ 0).trans (getLsbD_append_ofBool_zero _ _)

theorem statusWord_getLsbD_2 : (statusWord s).getLsbD 2 = s.errFlag :=
  (getLsbD_append_ofBool_succ _ _ 1).trans <| (getLsbD_append_ofBool_succ _ _ 0).trans <|
    getLsbD_append_ofBool_zero _ _

theorem statusWord_getLsbD_3 : (statusWord s).getLsbD 3 = s.reqFlag :=
  (getLsbD_append_ofBool_succ _ _ 2).trans <| (getLsbD_append_ofBool_succ _ _ 1).trans <|
    (getLsbD_append_ofBool_succ _ _ 0).trans <| getLsbD_append_ofBool_zero _ _

theorem statusWord_getLsbD_4 : (statusWord s).getLsbD 4 = s.cerr :=
  (getLsbD_append_ofBool_succ _ _ 3).trans <| (getLsbD_append_ofBool_succ _ _ 2).trans <|
    (getLsbD_append_ofBool_succ _ _ 1).trans <| (getLsbD_append_ofBool_succ _ _ 0).trans <|
    getLsbD_append_ofBool_zero _ _

theorem statusWord_getLsbD_5 : (statusWord s).getLsbD 5 = s.vovf :=
  (getLsbD_append_ofBool_succ _ _ 4).trans <| (getLsbD_append_ofBool_succ _ _ 3).trans <|
    (getLsbD_append_ofBool_succ _ _ 2).trans <| (getLsbD_append_ofBool_succ _ _ 1).trans <|
    (getLsbD_append_ofBool_succ _ _ 0).trans <| getLsbD_append_ofBool_zero _ _

/-- STATUS above its six flags: two bits 0, the code of PHASE, 0. -/
theorem statusWord_extract (i len : Nat) :
    (statusWord s).extractLsb' (i + 6) len = (0#20 ++ s.phase.code ++ 0#2).extractLsb' i len :=
  extractLsb'_append_ofBool_six _ _ _ _ _ _ _ i len

theorem statusWord_phase : (statusWord s).extractLsb' 8 4 = s.phase.code := by
  rw [statusWord_extract s 2]; cases s.phase <;> rfl

theorem statusWord_reserved_low : (statusWord s).extractLsb' 6 2 = 0#2 := by
  rw [statusWord_extract s 0]; cases s.phase <;> rfl

theorem statusWord_reserved_high : (statusWord s).extractLsb' 12 20 = 0#20 := by
  rw [statusWord_extract s 6]; cases s.phase <;> rfl

end Status

/-- R29: bit `i` of IE as the host reads it. -/
theorem readReg_ie_getLsbD (s : State) {i : Nat} (hi : i < 4) : (readReg .ie s).getLsbD i = s.ie.getLsbD i := by
  simp [readReg]
  omega

/-- R24: each code is the code of its phase alone. -/
theorem Phase.code_eq_iff (p : Phase) :
    ∀ row ∈ [(Phase.idle, 0#4), (.accum, 1#4), (.parse, 2#4), (.frameStart, 3#4), (.allocWait, 4#4),
      (.decode, 5#4), (.notifyWait, 6#4), (.appendWait, 7#4), (.done, 8#4), (.failed, 9#4)],
      p.code = row.2 ↔ p = row.1 := by
  cases p <;> decide

/-- The flags of STATUS and REQ_TYPE by the code of PHASE (spec/10_state.md R24, R47). -/
theorem Phase.flags_by_code (p : Phase) :
    p.code.toNat ≤ 9 ∧ (p.busy = true ↔ 2 ≤ p.code.toNat ∧ p.code.toNat ≤ 7) ∧
      ((p == .done) = true ↔ p.code.toNat = 8) ∧ ((p == .failed) = true ↔ p.code.toNat = 9) ∧
      ((p.reqType != .none) = true ↔ p.code.toNat = 4 ∨ p.code.toNat = 6 ∨ p.code.toNat = 7) ∧
      (reqTypeCode p.reqType).setWidth 32 =
        if p.code.toNat = 4 then 1#32
        else if p.code.toNat = 6 then 2#32
        else if p.code.toNat = 7 then 3#32
        else 0#32 := by
  cases p <;> decide

/-- Settles O12: each field of STATUS is a flag or the code of PHASE, and the rest is a table over the phases. -/
theorem statusAndIrqFollowTheState : Obligations.StatusAndIrqFollowTheState := by
  have hstatus : ∀ s : State, readOffset 0x008#12 s = statusWord s := readOffset_offset .status
  have hie : ∀ s : State, readOffset 0x018#12 s = readReg .ie s := readOffset_offset .ie
  simp only [Obligations.StatusAndIrqFollowTheState, hstatus, hie, statusWord_phase]
  refine ⟨fun s => s.phase.code_eq_iff, ?_, fun s => ?_, rfl, rfl⟩
  · rintro s p rfl
    obtain ⟨hle, hbusy, hdone, herr, hreq, htype⟩ := s.phase.flags_by_code
    rw [statusWord_getLsbD_0, statusWord_getLsbD_1, statusWord_getLsbD_2, statusWord_getLsbD_3]
    exact ⟨hle, hbusy, hdone, herr, hreq, statusWord_getLsbD_4 s, statusWord_getLsbD_5 s, statusWord_reserved_low s,
      statusWord_reserved_high s, (readOffset_offset .reqType s).trans htype⟩
  · simp only [statusWord_getLsbD_1, statusWord_getLsbD_2, statusWord_getLsbD_3, statusWord_getLsbD_4,
      readReg_ie_getLsbD s (show 0 < 4 by decide), readReg_ie_getLsbD s (show 1 < 4 by decide),
      readReg_ie_getLsbD s (show 2 < 4 by decide), readReg_ie_getLsbD s (show 3 < 4 by decide),
      State.irq, Bool.or_eq_true, Bool.and_eq_true, or_assoc]

end Sys2Proof.Machine
end

section
/-! PROOFS. VOVF is written by VAC_MIPSIZE, VAC_OFFSET and reset alone (spec/10_state.md R26). -/

namespace Sys2Proof.Machine

/-- Every next state that `r` answers has the VOVF of `s`. -/
def Result.keepsVovf (r : Result) (s : State) : Prop := ∀ t, r = .next t → t.vovf = s.vovf

theorem keepsVovf_next {s t : State} (h : t.vovf = s.vovf) : Result.keepsVovf (.next t) s :=
  fun u hu => by cases hu; exact h

theorem keepsVovf_fault (e : Fault) (s : State) : Result.keepsVovf (.fault e) s := fun u hu => by cases hu

theorem keepsVovf_unlessBusy {r : Result} {s : State} (h : Result.keepsVovf r s) :
    Result.keepsVovf (unlessBusy s r) s := fun t ht => by
  rcases unlessBusy_next ht with rfl | ⟨-, hr⟩
  · rfl
  · exact h t hr

theorem pushBytes_keepsVovf (bs : List Byte) (s : State) : Result.keepsVovf (pushBytes bs s) s := fun t ht => by
  rcases pushBytes_next ht with ⟨e, rfl⟩ | ⟨-, -, rfl⟩ | ⟨cap, -, -, rfl⟩ <;> rfl

theorem respondAck_vovf (s : State) : (respondAck s).vovf = s.vovf := by
  unfold respondAck ackAlloc
  split
  · split_ifs <;> rfl
  all_goals rfl

theorem respondFail_vovf (s : State) : (respondFail s).vovf = s.vovf := by
  unfold respondFail
  split <;> rfl

theorem writeField_vovf (r : Reg) (v : Word) (s : State) : (writeField r v s).vovf = s.vovf := by
  rcases writeField_cases r v s with heq | ⟨_, _, heq⟩ | ⟨-, _, _, _, _, _, _, heq⟩ <;> simp [heq]

theorem storeReg_vovf (r : Reg) (v : Word) (s : State) : (storeReg r v s).vovf = s.vovf := by
  rcases storeReg_cases r v s with ⟨-, heq⟩ | ⟨-, heq⟩ <;> rw [heq]
  · rfl
  · exact writeField_vovf r v s

theorem refuseWrite_keepsVovf (r : Reject) (s : State) : Result.keepsVovf (refuseWrite r s) s := by
  have hraise : ∀ e, Result.keepsVovf (.next (raiseCmdError e s)) s := fun _ => keepsVovf_next rfl
  cases r with
  | illegalCommand | badResponse => exact hraise _
  | misaligned => exact fun t ht => by cases ht
  | _ => exact keepsVovf_unlessBusy (hraise _)

/-- The two commands that store a result of the Volume Address Calculator. -/
def Instr.isVac : Instr → Bool
  | .vacMipsize _ _ | .vacOffset => true
  | _ => false

theorem exec_keepsVovf {i : Instr} (hi : Instr.isVac i = false) (s : State) : Result.keepsVovf (exec i s) s := by
  cases i with
  | vacMipsize | vacOffset => cases hi
  | nop | abort => exact keepsVovf_next rfl
  | loadBegin | loadEnd => exact keepsVovf_unlessBusy (by split_ifs <;> exact keepsVovf_next rfl)
  | stream1 | stream2 | stream3 | stream4 => exact pushBytes_keepsVovf _ s
  | rspAckAlloc | rspAckNotify | rspAckAppend => exact keepsVovf_next (respondAck_vovf s)
  | rspFailAlloc => exact keepsVovf_next (respondFail_vovf s)
  | _ => exact keepsVovf_unlessBusy (keepsVovf_next rfl)

theorem validateHeader_vovf (s : State) : (validateHeader s).vovf = s.vovf := by
  rcases validateHeader_cases s with ⟨e, heq⟩ | ⟨f, -, -, -, -, heq⟩ <;> simp [heq]

theorem parseStep_keepsVovf (s : State) : Result.keepsVovf (parseStep s) s := by
  unfold parseStep
  split
  · exact keepsVovf_next rfl
  · split
    · exact keepsVovf_fault _ s
    · exact keepsVovf_next (validateHeader_vovf _)

theorem frameStartStep_vovf (s : State) : (frameStartStep s).vovf = s.vovf := by
  unfold frameStartStep
  split
  · rfl
  · split
    · rfl
    · split <;> rfl

theorem decodeStep_keepsVovf (s : State) : Result.keepsVovf (decodeStep s) s := by
  unfold decodeStep
  split
  · exact keepsVovf_next rfl
  · split
    · unfold requestDecoded
      exact keepsVovf_next (by split <;> rfl)
    · exact keepsVovf_next rfl
    · exact keepsVovf_fault _ s

theorem engineStep_keepsVovf (s : State) : Result.keepsVovf (engineStep s) s := by
  unfold engineStep
  split
  · exact parseStep_keepsVovf s
  · exact keepsVovf_next (frameStartStep_vovf s)
  · exact decodeStep_keepsVovf s
  all_goals exact keepsVovf_fault _ s

/-- A register write that changes VOVF is the write of a VAC command. -/
theorem hostWrite_vovf {w : Txn} {s t : State} (h : hostWrite w s = .next t) (hne : t.vovf ≠ s.vovf) :
    ∃ i, decode s.phase.reqType w = .run i ∧ Instr.isVac i = true := by
  unfold hostWrite at h
  split at h
  · next i hdec => exact ⟨i, hdec, by_contra fun hi => hne (exec_keepsVovf (by simpa using hi) s t h)⟩
  · next r _ => exact absurd (refuseWrite_keepsVovf r s t h) hne
  · next r v _ => cases h; exact absurd (storeReg_vovf r v s) hne
  · cases h; exact absurd rfl hne

/-- Settles O56, by the next input. -/
theorem onlyVacCommandsWriteVovf : Obligations.OnlyVacCommandsWriteVovf := by
  intro s t hstep hne
  unfold step at hstep
  split at hstep
  · exact absurd (engineStep_keepsVovf s t hstep) hne
  · next w rest hin =>
    obtain ⟨i, hdec, hi⟩ := hostWrite_vovf hstep hne
    refine .inr ⟨w, rest, hin, ?_⟩
    cases i with
    | vacOffset => exact .inl hdec
    | vacMipsize level dsel => exact .inr ⟨level, dsel, hdec⟩
    | _ => cases hi
  · next off rest _ =>
    unfold hostRead at hstep
    split at hstep <;> cases hstep
    exact absurd rfl hne
  · next mask value rest _ =>
    unfold pollStatus at hstep
    split at hstep
    · cases hstep; exact absurd rfl hne
    · exact absurd (engineStep_keepsVovf _ t hstep) hne
  · next rest _ =>
    unfold engineTurn at hstep
    split at hstep
    · exact absurd (engineStep_keepsVovf _ t hstep) hne
    · cases hstep; exact absurd rfl hne
  · next rest hin => exact .inl ⟨rest, hin⟩
  · cases hstep; exact absurd rfl hne
  · cases hstep; exact absurd rfl hne

end Sys2Proof.Machine
end

section
/-! PROOFS. The accumulator is append-only: each change that `Effect` lists leaves the bytes below ACC_SIZE, or it ends
or begins a load (spec/20_memory.md R72, R86). -/

namespace Sys2Proof.Machine

/-- ACC_MEM grows from `s` to `t` at most: no byte below ACC_SIZE changes and ACC_SIZE does not fall, and once PARSE has
begun nothing of the buffer changes (spec/20_memory.md R72, R86). -/
def State.appendsOnly (s t : State) : Prop :=
  s.accSize.toNat ≤ t.accSize.toNat ∧ (∀ a < s.accSize.toNat, t.accMem.read a = s.accMem.read a) ∧
    (s.busy = true → t.accMem = s.accMem ∧ t.accSize = s.accSize ∧ t.accCap = s.accCap)

/-- R155, R158: between loads, that is while not BUSY and not in ACCUM, no buffer is held. -/
theorem Phase.holdsBuffer_of_free {p : Phase} (hb : p.busy = false) (hp : p ≠ .accum) : p.holdsBuffer = false := by
  cases p with
  | idle | done | failed => rfl
  | accum => exact absurd rfl hp
  | _ => cases hb

section Accumulator
variable {s t : State}

theorem State.appendsOnly_of_eq (hmem : t.accMem = s.accMem) (hsize : t.accSize = s.accSize)
    (hcap : t.accCap = s.accCap) : s.appendsOnly t :=
  ⟨Nat.le_of_eq (by rw [hsize]), fun _ _ => by rw [hmem], fun _ => ⟨hmem, hsize, hcap⟩⟩

/-- R152: an accepted push writes at ACC_SIZE and beyond, and only in ACCUM. -/
theorem State.appendsOnly_pushed (bs : List Byte) {cap : Nat} (hp : s.phase = .accum)
    (hg : grow Config.accHeadroom.val (s.accSize.toNat + bs.length) s.accCap.toNat = .ok cap) :
    s.appendsOnly { s with
      accMem := s.accMem.writeList s.accSize.toNat bs
      accSize := BitVec.ofNat 32 (s.accSize.toNat + bs.length)
      accCap := BitVec.ofNat 32 cap } := by
  obtain ⟨-, hfit, hmax⟩ := grow_eq_ok hg
  have hlt : cap < 2 ^ 32 := lt_of_withinMax hmax
  refine ⟨?_, fun a ha => Memory.read_writeList_out _ _ (.inl ha), fun hb => ?_⟩
  · simp only [BitVec.toNat_ofNat]
    rw [Nat.mod_eq_of_lt (by omega)]
    exact Nat.le_add_right ..
  · simp [State.busy, hp, Phase.busy] at hb

theorem State.appendsOnly_stored (r : Reg) (v : Word) (s : State) : s.appendsOnly (writeField r v s) := by
  rcases writeField_cases r v s with heq | ⟨_, _, heq⟩ | ⟨-, _, _, _, _, _, _, heq⟩ <;> rw [heq] <;>
    exact appendsOnly_of_eq rfl rfl rfl

theorem requestDecoded_appendsOnly (s : State) : s.appendsOnly (requestDecoded s) := by
  unfold requestDecoded
  split <;> exact State.appendsOnly_of_eq rfl rfl rfl

/-- A change that neither ends nor begins a load appends at most. -/
theorem Effect.appendsOnly (he : Effect s t) (hs : s.phase.holdsBuffer = true) (ht : t.phase.holdsBuffer = true) :
    s.appendsOnly t := by
  cases he with
  | stored r v _ => exact State.appendsOnly_stored r v s
  | pushed bs cap hp _ hg => exact State.appendsOnly_pushed bs hp hg
  | begun hb hp =>
    rw [Phase.holdsBuffer_of_free hb hp] at hs
    cases hs
  | decoded f m _ _ _ => exact requestDecoded_appendsOnly { s with dest := m }
  | wasReset | aborted | pushFailed | allocRefused | headerShort | headerBad | finished | frameBad |
    decodeUnsupported | decodeStopped => cases ht
  | _ => exact State.appendsOnly_of_eq rfl rfl rfl

end Accumulator

/-- Settles O23, by the change that the step is. -/
theorem accumulatorIsAppendOnly : Obligations.AccumulatorIsAppendOnly := by
  intro s t hs ht hstep
  obtain ⟨inputs, readData, he⟩ := step_effect hstep
  exact he.appendsOnly hs ht

end Sys2Proof.Machine
end

section
/-! PROOFS. From the invariant a frame is decoded without a fault and inside the frame buffer: its source bytes have
been pushed (spec/20_memory.md R73, spec/45_frame_dispatcher.md R312) and the buffer has room for its pixels (R74,
R314). -/

namespace Sys2Proof.Machine

/-! ### Paintings inside a range of addresses -/

/-- A writing action that does not fault and changes no byte outside `[lo, hi)`. -/
def Confined (lo hi : Nat) (act : Memory → Painted) : Prop :=
  ∀ m, ∃ m', (act m = .done m' ∨ act m = .bounds m') ∧ ∀ a, (a < lo ∨ hi ≤ a) → m'.read a = m.read a

section Paintings
variable {lo hi : Nat}

theorem confined_done : Confined lo hi .done := fun m => ⟨m, .inl rfl, fun _ _ => rfl⟩

theorem confined_bounds : Confined lo hi .bounds := fun m => ⟨m, .inr rfl, fun _ _ => rfl⟩

theorem confined_writeChannels {a : Nat} {bs : List Byte} (hlo : lo ≤ a) (hhi : a + bs.length ≤ hi)
    (hspace : hi ≤ 2 ^ 64) : Confined lo hi (writeChannels a bs) := fun m =>
  ⟨m.writeList a bs, .inl (writeChannels_done a bs m (by omega)),
    fun _ _ => Memory.read_writeList_out m bs (by omega)⟩

theorem confined_paint {α : Type} {f : α → Memory → Painted} {as : List α} (h : ∀ a ∈ as, Confined lo hi (f a)) :
    Confined lo hi (paint f as) := by
  induction as with
  | nil => exact confined_done
  | cons a rest ih =>
    intro m
    obtain ⟨m1, hend, hkeep⟩ := h a (List.mem_cons_self ..) m
    rw [paint]
    rcases hend with heq | heq <;> rw [heq]
    · obtain ⟨m2, hend2, hkeep2⟩ := ih (fun b hb => h b (List.mem_cons_of_mem _ hb)) m1
      exact ⟨m2, hend2, fun x hx => (hkeep2 x hx).trans (hkeep x hx)⟩
    · exact ⟨m1, .inr rfl, hkeep⟩

end Paintings

/-! ### Reading the accumulator -/

/-- R73: a range below ACC_SIZE has been pushed. -/
theorem State.Inv.accRead_isSome {s : State} (h : s.Inv) {off n : Nat} (hle : off + n ≤ s.accSize.toNat) :
    ∃ bs, accRead s off n = some bs := by
  unfold accRead
  rw [if_pos hle]
  refine Memory.readList_isSome fun k hk => ?_
  rw [Memory.read_isSome, h.accListed, List.mem_range]
  omega

/-- A cell of a `w` by `h` grid of `n`-byte units, row by row, ends inside the grid. -/
theorem gridUnit_le {w h x y : Nat} (n : Nat) (hx : x < w) (hy : y < h) : (y * w + x) * n + n ≤ w * h * n := by
  have hcell : y * w + x + 1 ≤ w * h := by
    calc y * w + x + 1 ≤ y * w + w := by omega
      _ = (y + 1) * w := by ring
      _ ≤ h * w := Nat.mul_le_mul_right w hy
      _ = w * h := Nat.mul_comm ..
  calc (y * w + x) * n + n = (y * w + x + 1) * n := by ring
    _ ≤ w * h * n := Nat.mul_le_mul_right n hcell

/-- R312: a unit of a grid that the range check has let pass can be read. -/
theorem State.Inv.accRead_unit {s : State} (h : s.Inv) {off w ht x y n : Nat}
    (hrange : w * ht * n = 0 ∨ off + w * ht * n ≤ s.accSize.toNat) (hn : 0 < n) (hx : x < w) (hy : y < ht) :
    ∃ bs, accRead s (off + (y * w + x) * n) n = some bs := by
  have hunit := gridUnit_le n hx hy
  exact h.accRead_isSome (by omega)

/-! ### The frame buffer -/

/-- R314: the channels of a pixel of the frame lie in an accepted buffer. -/
theorem State.bufferAccepted.pixel_le {s : State} (h : s.bufferAccepted) {x y : Nat} (hx : x < s.hdr.width.toNat)
    (hy : y < s.hdr.height.toNat) :
    y * s.fb.stride.toNat + x * s.fb.nch.toNat + s.fb.nch.toNat ≤ s.fb.size.toNat := by
  obtain ⟨-, hneed, -, hnch⟩ := h
  rw [needBytes, if_neg (by omega), rowBytes, ← hnch] at hneed
  have hrows : y * s.fb.stride.toNat ≤ (s.hdr.height.toNat - 1) * s.fb.stride.toNat :=
    Nat.mul_le_mul_right _ (by omega)
  have hrow : (x + 1) * s.fb.nch.toNat ≤ s.hdr.width.toNat * s.fb.nch.toNat := Nat.mul_le_mul_right _ hx
  rw [Nat.succ_mul] at hrow
  omega

/-- A writing action that stays inside the buffer of the frame-buffer latch. -/
def State.InBuffer (s : State) (act : Memory → Painted) : Prop :=
  Confined s.fb.base.toNat (s.fb.base.toNat + s.fb.size.toNat) act

section Frame
variable {s : State}

/-- R232: a pixel of a per-pixel frame, its source bytes read. -/
theorem State.bufferAccepted.pixelStep_inBuffer (h : s.bufferAccepted) {f : List Byte → Pixel} {bpp off : Nat}
    {p : Nat × Nat} (hx : p.1 < s.hdr.width.toNat) (hy : p.2 < s.hdr.height.toNat)
    (hread : ∃ bs, accRead s (off + (p.2 * s.hdr.width.toNat + p.1) * bpp) bpp = some bs) :
    s.InBuffer (pixelStep f bpp off s p) := by
  obtain ⟨bs, hbs⟩ := hread
  have hroom := h.pixel_le hx hy
  have hlen : ((f bs).channels.take s.fb.nch.toNat).length ≤ s.fb.nch.toNat := List.length_take_le _ _
  obtain ⟨-, -, hspace, -⟩ := h
  unfold pixelStep
  rw [hbs]
  exact confined_writeChannels (by omega) (by omega) hspace

/-- R279, R280: CLIP writes a pixel of the frame only, LEGACY stops before the buffer's end. -/
theorem State.bufferAccepted.writeBlockPixel_inBuffer (h : s.bufferAccepted) (hnch : s.fb.nch.toNat = 4) (x y : Nat)
    (p : Pixel) : s.InBuffer (writeBlockPixel s x y p) := by
  have hlen : p.channels.length = 4 := rfl
  have ⟨_, _, hspace, _⟩ := h
  unfold writeBlockPixel
  simp only
  split_ifs with hlegacy hend hin
  · exact confined_bounds
  · exact confined_writeChannels (by omega) (by omega) hspace
  · have hroom := h.pixel_le hin.1 hin.2
    rw [hnch] at hroom
    exact confined_writeChannels (by omega) (by omega) hspace
  · exact confined_done

/-- R278: a block of a block frame, its source bytes read. -/
theorem State.bufferAccepted.blockStep_inBuffer (h : s.bufferAccepted) (hnch : s.fb.nch.toNat = 4)
    {f : List Byte → Nat → Pixel} {bb off : Nat} {p : Nat × Nat}
    (hread : ∃ bs, accRead s (off + (p.2 * ceilQuarter s.hdr.width.toNat + p.1) * bb) bb = some bs) :
    s.InBuffer (blockStep f bb off s p) := by
  obtain ⟨bs, hbs⟩ := hread
  unfold blockStep
  rw [hbs]
  exact confined_paint fun k _ => h.writeBlockPixel_inBuffer hnch _ _ _

/-- R244: the decoder of a format is that of its unit; the block formats have an alpha channel. -/
theorem decodeFrame_unit (f : Format) :
    (∃ pix bpp, f.unit = .pixel bpp ∧ 0 < bpp ∧ ∀ off s, decodeFrame f off s = decodePixels pix bpp off s) ∨
      ∃ dec bb, f.unit = .block bb ∧ 0 < bb ∧ f.hasAlpha = true ∧
        ∀ off s, decodeFrame f off s = decodeBlocks dec bb off s := by
  cases f with
  | dxt1 | dxt5 => exact .inr ⟨_, _, rfl, by decide, rfl, fun _ _ => rfl⟩
  | _ => exact .inl ⟨_, _, rfl, by decide, fun _ _ => rfl⟩

/-- R316: from the invariant the DECODE step decodes its frame inside the frame buffer. -/
theorem State.Inv.decodeFrame_inBuffer (h : s.Inv) (hp : s.phase = .decode) {f : Format}
    (htag : Format.ofTag s.hdr.format = some f) :
    ∃ m, (decodeFrame f (frameSource (s.geometry f) s) s = .done m ∨
        decodeFrame f (frameSource (s.geometry f) s) s = .bounds m) ∧
      ∀ a, (a < s.fb.base.toNat ∨ s.fb.base.toNat + s.fb.size.toNat ≤ a) → m.read a = s.dest.read a := by
  obtain ⟨-, hrange, -⟩ := h.pending (by rw [hp]; rfl)
  have hbuffer : s.bufferAccepted := h.accepted (by rw [hp]; rfl)
  have hread := hrange f htag
  rcases decodeFrame_unit f with ⟨pix, bpp, hunit, hpos, heq⟩ | ⟨dec, bb, hunit, hpos, halpha, heq⟩ <;> rw [heq]
  · rw [frameInRange, Geometry.frameReadBytes, show (s.geometry f).format.unit = .pixel bpp from hunit] at hread
    refine confined_paint (fun p hcell => ?_) s.dest
    obtain ⟨hx, hy⟩ := mem_raster.mp hcell
    exact hbuffer.pixelStep_inBuffer hx hy (h.accRead_unit hread hpos hx hy)
  · rw [frameInRange, Geometry.frameReadBytes, show (s.geometry f).format.unit = .block bb from hunit] at hread
    have hnch : s.fb.nch.toNat = 4 := by
      obtain ⟨-, -, -, hnch⟩ := hbuffer
      rw [hnch, Hdr.nch, Hdr.hasAlpha, htag]
      simp only [halpha, if_true]
    refine confined_paint (fun p hcell => ?_) s.dest
    obtain ⟨hx, hy⟩ := mem_raster.mp hcell
    exact hbuffer.blockStep_inBuffer hnch (h.accRead_unit hread hpos hx hy)

end Frame

end Sys2Proof.Machine
end

section
/-! PROOFS. Which steps can stop with a fault (spec/20_memory.md R73, R74, spec/40_accumulator.md R153,
spec/45_frame_dispatcher.md R324). -/

namespace Sys2Proof.Machine

section Faults
variable {s : State} {e : Fault}

/-! ### Register writes -/

theorem unlessBusy_fault {r : Result} (h : unlessBusy s r = .fault e) : r = .fault e := by
  unfold unlessBusy at h
  split at h
  · cases h
  · exact h

/-- R153: a push faults only in ACCUM, where the doubling does not reach the new size. -/
theorem pushBytes_fault {bs : List Byte} (h : pushBytes bs s = .fault e) :
    s.phase = .accum ∧ grow Config.accHeadroom.val (s.accSize.toNat + bs.length) s.accCap.toNat = .diverges := by
  have h := unlessBusy_fault h
  split at h
  · next hp =>
    split at h
    · cases h
    · cases h
    · next hg => exact ⟨hp, hg⟩
  · cases h

/-- R153: the doubling of a capacity above 0 reaches every size that a push can ask for. -/
theorem le_doubleUntil {newSize cap : Nat} (hcap : 0 < cap) (hsize : newSize ≤ 2 ^ 33) :
    newSize ≤ doubleUntil doublingTurns newSize cap := by
  obtain ⟨k, hk, heq, hfit, -⟩ := doubleUntil_spec doublingTurns newSize cap
  rw [heq]
  rcases Nat.lt_or_ge k doublingTurns with hlt | hge
  · exact hfit hlt
  · rw [show k = 33 from Nat.le_antisymm hk hge]
    omega

/-- R153, R160: from the invariant the doubling ends. -/
theorem State.Inv.pushBytes_ne_fault (h : s.Inv) {bs : List Byte} (hlen : bs.length ≤ 4) :
    pushBytes bs s ≠ .fault e := by
  intro hfault
  obtain ⟨hp, hg⟩ := pushBytes_fault hfault
  have hcap : 0 < s.accCap.toNat := by
    obtain ⟨k, -, heq, -⟩ := doubleUntil_spec doublingTurns s.accSize.toNat Config.accInitCapacity
    rw [h.capacity_of_holdsBuffer (by rw [hp]; rfl), heq]
    exact Nat.mul_pos (by decide) (Nat.two_pow_pos k)
  have hsize := s.accSize.isLt
  have hfit := le_doubleUntil (newSize := s.accSize.toNat + bs.length) hcap (by omega)
  rcases grow_cases Config.accHeadroom.val (s.accSize.toNat + bs.length) s.accCap.toNat with
    ⟨hlt, -⟩ | ⟨-, -, hok⟩ | ⟨-, -, hout⟩
  · omega
  · rw [hok] at hg; cases hg
  · rw [hout] at hg; cases hg

theorem State.Inv.exec_ne_fault (h : s.Inv) (i : Instr) : exec i s ≠ .fault e := by
  intro hfault
  cases i with
  | nop | abort | rspAckAlloc | rspFailAlloc | rspAckNotify | rspAckAppend => cases hfault
  | stream1 | stream2 | stream3 | stream4 =>
    exact h.pushBytes_ne_fault (by simp [streamBytes1, streamBytes2, streamBytes3, streamBytes4, wordBytes]) hfault
  | loadBegin | loadEnd | vacMipsize | vacOffset =>
    have hfree := unlessBusy_fault hfault
    repeat' split at hfree
    all_goals cases hfree
  | _ => cases unlessBusy_fault hfault

theorem refuseWrite_ne_fault (r : Reject) : refuseWrite r s ≠ .fault e := by
  intro hfault
  cases r with
  | illegalCommand | badResponse | misaligned => cases hfault
  | _ => cases unlessBusy_fault hfault

theorem State.Inv.hostWrite_ne_fault (h : s.Inv) (w : Txn) : hostWrite w s ≠ .fault e := by
  unfold hostWrite
  split
  · exact h.exec_ne_fault _
  · exact refuseWrite_ne_fault _
  all_goals exact nofun

/-! ### The engine -/

/-- R73, R74, R324: from the invariant the engine has no fault but that no step of its own is enabled. -/
theorem State.Inv.engineStep_fault (h : s.Inv) (hfault : engineStep s = .fault e) :
    e = .stuckOnHost ∧ s.phase.engineEnabled = false := by
  unfold engineStep at hfault
  split at hfault
  · unfold parseStep at hfault
    split at hfault
    · cases hfault
    · next hsize =>
      obtain ⟨bs, hbs⟩ := h.accRead_isSome (off := 0) (n := hdrBytes) (by omega)
      rw [hbs] at hfault
      cases hfault
  · cases hfault
  · next hp =>
    unfold decodeStep at hfault
    split at hfault
    · cases hfault
    · next f htag =>
      obtain ⟨m, heq | heq, -⟩ := h.decodeFrame_inBuffer hp htag <;> rw [heq] at hfault <;> cases hfault
  all_goals next hp => exact ⟨by cases hfault; rfl, by rw [hp]; rfl⟩

end Faults

/-- Settles O52, by the next input: register writes do not fault, and where the engine steps it faults only because
none of its steps is enabled. -/
theorem onlyAnIdleMachineStops : Obligations.OnlyAnIdleMachineStops := by
  intro s e h hstep
  unfold step at hstep
  split at hstep
  · next hin =>
    obtain ⟨he, hidle⟩ := h.engineStep_fault hstep
    exact ⟨he, hidle, .inl hin⟩
  · next w rest _ =>
    have hs : { s with inputs := rest }.Inv := { h with }
    exact absurd hstep (hs.hostWrite_ne_fault w)
  · unfold hostRead at hstep
    split at hstep <;> cases hstep
  · next mask value rest hin =>
    unfold pollStatus at hstep
    split at hstep
    · cases hstep
    · next hne =>
      have hs : { s with readData := statusWord s }.Inv := { h with }
      obtain ⟨he, hidle⟩ := hs.engineStep_fault hstep
      exact ⟨he, hidle, .inr ⟨mask, value, rest, hin, hne⟩⟩
  · next rest _ =>
    unfold engineTurn at hstep
    split at hstep
    · next henabled =>
      have hs : { s with inputs := rest }.Inv := { h with }
      obtain ⟨-, hidle⟩ := hs.engineStep_fault hstep
      exact absurd henabled (by rw [hidle]; decide)
    · cases hstep
  all_goals cases hstep

end Sys2Proof.Machine
end

section
/-! PROOFS. VTFDEC never reads the destination memory (spec/20_memory.md R74): register writes and the steps before
DECODE neither read nor write it, and the DECODE step writes the same bytes over any contents. -/

namespace Sys2Proof.Machine

/-! ### Results that leave the destination out -/

/-- The result with another destination memory in the next state. -/
def Result.withDest (m : Memory) : Result → Result
  | .next t => .next { t with dest := m }
  | .fault e => .fault e
  | .refused r => .refused r

section DestUntouched
variable (m : Memory) (s : State)

/-- A meaning that commutes with replacing the destination memory leaves it as it was. -/
theorem dest_of_withDest {s t : State} {r : Result} (hr : r = r.withDest s.dest) (h : r = .next t) :
    t.dest = s.dest := by
  rw [h] at hr
  injection hr with ht
  rw [ht]

theorem withDest_ite {c : Prop} [Decidable c] {r1 r2 q1 q2 : Result} (h1 : r1 = q1.withDest m)
    (h2 : r2 = q2.withDest m) : (if c then r1 else r2) = (if c then q1 else q2 : Result).withDest m := by
  split
  · exact h1
  · exact h2

theorem State.ite_withDest {c : Prop} [Decidable c] {t u t' u' : State} (ht : t' = { t with dest := m })
    (hu : u' = { u with dest := m }) : (if c then t' else u') = { if c then t else u with dest := m } := by
  split
  · exact ht
  · exact hu

theorem unlessBusy_withDest {s : State} {r q : Result} (h : r = q.withDest m) :
    unlessBusy { s with dest := m } r = (unlessBusy s q).withDest m := withDest_ite m rfl h

theorem pushBytes_withDest (bs : List Byte) :
    pushBytes bs { s with dest := m } = (pushBytes bs s).withDest m :=
  unlessBusy_withDest m <| withDest_ite m (by
    cases grow Config.accHeadroom.val (s.accSize.toNat + bs.length) s.accCap.toNat <;> rfl) rfl

theorem ackAlloc_withDest : ackAlloc { s with dest := m } = { ackAlloc s with dest := m } :=
  State.ite_withDest m rfl (State.ite_withDest m rfl (State.ite_withDest m rfl rfl))

theorem respondAck_withDest : respondAck { s with dest := m } = { respondAck s with dest := m } := by
  have halloc := ackAlloc_withDest m s
  obtain ⟨ph⟩ := s
  cases ph with
  | allocWait => exact halloc
  | _ => rfl

theorem respondFail_withDest : respondFail { s with dest := m } = { respondFail s with dest := m } := by
  obtain ⟨ph⟩ := s
  cases ph <;> rfl

theorem exec_withDest (i : Instr) : exec i { s with dest := m } = Result.withDest m (exec i s) := by
  cases i with
  | nop | abort => rfl
  | loadBegin | loadEnd => exact unlessBusy_withDest m (withDest_ite m rfl rfl)
  | vacMipsize level dsel =>
    refine unlessBusy_withDest m ?_
    simp only
    cases Format.ofTag s.hdr.format <;> rfl
  | vacOffset =>
    refine unlessBusy_withDest m (withDest_ite m rfl ?_)
    simp only
    cases Format.ofTag s.hdr.format with
    | none => rfl
    | some f => exact withDest_ite m rfl rfl
  | stream1 | stream2 | stream3 | stream4 => exact pushBytes_withDest m s _
  | rspAckAlloc | rspAckNotify | rspAckAppend => exact congrArg Host.Outcome.next (respondAck_withDest m s)
  | rspFailAlloc => exact congrArg Host.Outcome.next (respondFail_withDest m s)
  | _ => exact unlessBusy_withDest m rfl

theorem refuseWrite_withDest (r : Reject) :
    refuseWrite r { s with dest := m } = (refuseWrite r s).withDest m := by
  cases r with
  | illegalCommand | badResponse | misaligned => rfl
  | _ => exact unlessBusy_withDest m rfl

theorem writeField_withDest (r : Reg) (v : Word) :
    writeField r v { s with dest := m } = { writeField r v s with dest := m } := by
  cases r with
  | status => simp only [writeField]; split <;> rfl
  | _ => rfl

theorem storeReg_withDest (r : Reg) (v : Word) :
    storeReg r v { s with dest := m } = { storeReg r v s with dest := m } :=
  State.ite_withDest m rfl (writeField_withDest m s r v)

/-- R74: no register write reads or writes the destination memory. -/
theorem hostWrite_withDest (w : Txn) : hostWrite w { s with dest := m } = (hostWrite w s).withDest m := by
  unfold hostWrite
  simp only
  cases decode s.phase.reqType w with
  | run i => exact exec_withDest m s i
  | refuse r => exact refuseWrite_withDest m s r
  | store r v => exact congrArg Host.Outcome.next (storeReg_withDest m s r v)
  | unmapped => rfl

theorem locatePayload_withDest : locatePayload { s with dest := m } = { locatePayload s with dest := m } := by
  unfold locatePayload
  simp only
  cases Format.ofTag s.hdr.format with
  | none => rfl
  | some f => exact State.ite_withDest m rfl rfl

theorem validateHeader_withDest : validateHeader { s with dest := m } = { validateHeader s with dest := m } :=
  State.ite_withDest m rfl (State.ite_withDest m rfl (locatePayload_withDest m s))

theorem parseStep_withDest : parseStep { s with dest := m } = (parseStep s).withDest m := by
  refine withDest_ite m rfl ?_
  rw [show accRead { s with dest := m } 0 hdrBytes = accRead s 0 hdrBytes from rfl]
  cases accRead s 0 hdrBytes with
  | none => rfl
  | some bs => exact congrArg Host.Outcome.next (validateHeader_withDest m { s with hdr := latchHeader bs })

theorem frameStartStep_withDest : frameStartStep { s with dest := m } = { frameStartStep s with dest := m } := by
  refine State.ite_withDest m rfl ?_
  simp only
  cases Format.ofTag s.hdr.format with
  | none => rfl
  | some f => exact State.ite_withDest m rfl rfl

end DestUntouched

/-! ### The same writes over two memories -/

/-- `m` and `n` come from `m0` and `n0` by the same writes: each byte is in both the same written one, or in each its
own old one. -/
def SameWrites (m0 n0 m n : Memory) : Prop :=
  ∀ a, (∃ b, m.read a = some b ∧ n.read a = some b) ∨ (m.read a = m0.read a ∧ n.read a = n0.read a)

/-- Two paintings that end alike, having made the same writes. -/
inductive Painted.Alike (m0 n0 : Memory) : Painted → Painted → Prop where
  | done {m n : Memory} (h : SameWrites m0 n0 m n) : Painted.Alike m0 n0 (.done m) (.done n)
  | bounds {m n : Memory} (h : SameWrites m0 n0 m n) : Painted.Alike m0 n0 (.bounds m) (.bounds n)
  | fault (e : Fault) : Painted.Alike m0 n0 (.fault e) (.fault e)

section TwoRuns
variable {m0 n0 m n : Memory}

theorem SameWrites.refl (m n : Memory) : SameWrites m n m n := fun _ => .inr ⟨rfl, rfl⟩

theorem SameWrites.write (h : SameWrites m0 n0 m n) (a : Nat) (b : Byte) :
    SameWrites m0 n0 (Memory.write a b m) (Memory.write a b n) := by
  intro x
  by_cases hx : x = a
  · subst hx
    exact .inl ⟨b, Memory.read_write_same m x b, Memory.read_write_same n x b⟩
  · rw [Memory.read_write_other m b hx, Memory.read_write_other n b hx]
    exact h x

theorem SameWrites.writeChannels_alike (h : SameWrites m0 n0 m n) (a : Nat) (bs : List Byte) :
    Painted.Alike m0 n0 (writeChannels a bs m) (writeChannels a bs n) := by
  induction bs generalizing a m n with
  | nil => exact .done h
  | cons b rest ih =>
    unfold writeChannels
    split
    · exact ih (h.write a b) (a + 1)
    · exact .fault _

theorem SameWrites.paint_alike {α : Type} {f : α → Memory → Painted}
    (hf : ∀ a m n, SameWrites m0 n0 m n → Painted.Alike m0 n0 (f a m) (f a n)) (as : List α)
    (h : SameWrites m0 n0 m n) : Painted.Alike m0 n0 (paint f as m) (paint f as n) := by
  induction as generalizing m n with
  | nil => exact .done h
  | cons a rest ih =>
    have hstep := hf a m n h
    unfold paint
    generalize f a m = r1 at hstep ⊢
    generalize f a n = r2 at hstep ⊢
    cases hstep with
    | done h1 => exact ih h1
    | bounds h1 => exact .bounds h1
    | fault e => exact .fault e

theorem SameWrites.pixelStep_alike (h : SameWrites m0 n0 m n) (f : List Byte → Pixel) (bpp off : Nat) (s : State)
    (p : Nat × Nat) : Painted.Alike m0 n0 (pixelStep f bpp off s p m) (pixelStep f bpp off s p n) := by
  unfold pixelStep
  split
  · exact .fault _
  · exact h.writeChannels_alike _ _

theorem SameWrites.writeBlockPixel_alike (h : SameWrites m0 n0 m n) (s : State) (x y : Nat) (p : Pixel) :
    Painted.Alike m0 n0 (writeBlockPixel s x y p m) (writeBlockPixel s x y p n) := by
  unfold writeBlockPixel
  simp only
  split_ifs
  · exact .bounds h
  · exact h.writeChannels_alike _ _
  · exact h.writeChannels_alike _ _
  · exact .done h

theorem SameWrites.blockStep_alike (h : SameWrites m0 n0 m n) (f : List Byte → Nat → Pixel) (bb off : Nat) (s : State)
    (p : Nat × Nat) : Painted.Alike m0 n0 (blockStep f bb off s p m) (blockStep f bb off s p n) := by
  unfold blockStep writeTile
  split
  · exact .fault _
  · refine SameWrites.paint_alike (fun _ _ _ h1 => ?_) _ h
    exact h1.writeBlockPixel_alike ..

/-- R74: a frame is decoded over any destination memory with the same writes. -/
theorem decodeFrame_alike (f : Format) (off : Nat) (s : State) (m : Memory) :
    Painted.Alike s.dest m (decodeFrame f off s) (decodeFrame f off { s with dest := m }) := by
  rcases decodeFrame_unit f with ⟨pix, bpp, -, -, heq⟩ | ⟨dec, bb, -, -, -, heq⟩ <;> rw [heq, heq]
  · exact SameWrites.paint_alike (f := pixelStep pix bpp off s) (fun _ _ _ h1 => h1.pixelStep_alike ..) _
      (SameWrites.refl s.dest m)
  · exact SameWrites.paint_alike (f := blockStep dec bb off s) (fun _ _ _ h1 => h1.blockStep_alike ..) _
      (SameWrites.refl s.dest m)

end TwoRuns

/-! ### The engine's step -/

section EngineStep
variable {s t : State}

theorem requestDecoded_withDest (m : Memory) (s : State) :
    requestDecoded { s with dest := m } = { requestDecoded s with dest := m } := State.ite_withDest m rfl rfl

theorem requestDecoded_dest (s : State) : (requestDecoded s).dest = s.dest := by
  unfold requestDecoded
  split <;> rfl

theorem decodeStep_of_unsupported (htag : Format.ofTag s.hdr.format = none) :
    decodeStep s = .next (raiseLoadError .unsupportedFormat s) := by
  simp only [decodeStep, htag]

section Decoded
variable {f : Format} {m : Memory} (htag : Format.ofTag s.hdr.format = some f)
include htag

theorem decodeStep_of_done (hd : decodeFrame f (frameSource (s.geometry f) s) s = .done m) :
    decodeStep s = .next (requestDecoded { s with dest := m }) := by
  simp only [decodeStep, htag, hd]

theorem decodeStep_of_bounds (hd : decodeFrame f (frameSource (s.geometry f) s) s = .bounds m) :
    decodeStep s = .next (raiseLoadError .destBounds { s with dest := m }) := by
  simp only [decodeStep, htag, hd]

end Decoded

/-- What the DECODE step does, when it answers a next state. -/
theorem decodeStep_next (h : decodeStep s = .next t) :
    (Format.ofTag s.hdr.format = none ∧ t = raiseLoadError .unsupportedFormat s) ∨
    ∃ f m, Format.ofTag s.hdr.format = some f ∧
      ((decodeFrame f (frameSource (s.geometry f) s) s = .done m ∧ t = requestDecoded { s with dest := m }) ∨
        (decodeFrame f (frameSource (s.geometry f) s) s = .bounds m ∧
          t = raiseLoadError .destBounds { s with dest := m })) := by
  unfold decodeStep at h
  split at h
  · next htag => cases h; exact .inl ⟨htag, rfl⟩
  · next f htag =>
    split at h
    · next m hd => cases h; exact .inr ⟨f, m, htag, .inl ⟨hd, rfl⟩⟩
    · next m hd => cases h; exact .inr ⟨f, m, htag, .inr ⟨hd, rfl⟩⟩
    · cases h

/-- R74: the DECODE step over another destination memory. -/
theorem decodeStep_alike (m : Memory) (h : decodeStep s = .next t) :
    ∃ m', decodeStep { s with dest := m } = .next { t with dest := m' } ∧ SameWrites s.dest m t.dest m' := by
  rcases decodeStep_next h with ⟨htag, rfl⟩ | ⟨f, m1, htag, hd⟩
  · exact ⟨m, decodeStep_of_unsupported (s := { s with dest := m }) htag, .refl s.dest m⟩
  · have hrun := decodeFrame_alike f (frameSource (s.geometry f) s) s m
    generalize hd' : decodeFrame f (frameSource (s.geometry f) s) { s with dest := m } = r at hrun
    rcases hd with ⟨hd, rfl⟩ | ⟨hd, rfl⟩ <;> rw [hd] at hrun
    · cases hrun with
      | @done _ m' hsame =>
        refine ⟨m', ?_, by rwa [requestDecoded_dest]⟩
        rw [decodeStep_of_done (s := { s with dest := m }) htag hd', requestDecoded_withDest m1 s,
          requestDecoded_withDest m' { s with dest := m }, requestDecoded_withDest m s]
    · cases hrun with
      | @bounds _ m' hsame => exact ⟨m', decodeStep_of_bounds (s := { s with dest := m }) htag hd', hsame⟩

/-- Outside DECODE the engine neither reads nor writes the destination memory. -/
theorem engineStep_withDest (hp : s.phase ≠ .decode) (m : Memory) :
    engineStep { s with dest := m } = (engineStep s).withDest m := by
  have hparse := parseStep_withDest m s
  have hstart := frameStartStep_withDest m s
  obtain ⟨ph⟩ := s
  cases ph with
  | parse => exact hparse
  | frameStart => exact congrArg Host.Outcome.next hstart
  | decode => exact absurd rfl hp
  | _ => rfl

theorem engineStep_of_decode (hp : s.phase = .decode) : engineStep s = decodeStep s := by
  simp only [engineStep, hp]

/-- R74: from the invariant the engine writes the destination memory in DECODE only, inside the frame buffer. -/
theorem State.Inv.engineStep_dest (hs : s.Inv) (h : engineStep s = .next t) :
    t.dest = s.dest ∨ (s.phase = .decode ∧
      ∀ a, (a < s.fb.base.toNat ∨ s.fb.base.toNat + s.fb.size.toNat ≤ a) → t.dest.read a = s.dest.read a) := by
  by_cases hp : s.phase = .decode
  · rw [engineStep_of_decode hp] at h
    rcases decodeStep_next h with ⟨-, rfl⟩ | ⟨f, m, htag, hd⟩
    · exact .inl rfl
    · obtain ⟨m', hd', hkeep⟩ := hs.decodeFrame_inBuffer hp htag
      refine .inr ⟨hp, ?_⟩
      rcases hd with ⟨hd, rfl⟩ | ⟨hd, rfl⟩ <;> rw [hd] at hd' <;> obtain heq | heq := hd' <;> cases heq
      · rwa [requestDecoded_dest]
      · exact hkeep
  · exact .inl (dest_of_withDest (engineStep_withDest hp s.dest) h)

end EngineStep

/-- Settles O57, by the next input: a register write, a read and reset leave the destination memory as it was, and the
engine's turn is the engine's step or nothing. -/
theorem onlyDecodeWritesTheFrameBuffer : Obligations.OnlyDecodeWritesTheFrameBuffer := by
  intro s t h hstep
  have hengine : ∀ inputs readData, s.cause = some .engine →
      engineStep { s with inputs := inputs, readData := readData } = .next t →
      t.dest = s.dest ∨ (s.phase = .decode ∧ s.cause = some .engine ∧
        ∀ a, (a < s.fb.base.toNat ∨ s.fb.base.toNat + s.fb.size.toNat ≤ a) → t.dest.read a = s.dest.read a) := by
    intro inputs readData hcause hnext
    have hs : { s with inputs := inputs, readData := readData }.Inv := { h with }
    exact (hs.engineStep_dest hnext).imp_right fun ⟨hp, hkeep⟩ => ⟨hp, hcause, hkeep⟩
  unfold step at hstep
  split at hstep
  · next hin => exact .inr (hengine s.inputs s.readData (by simp only [State.cause, hin]) hstep)
  · next w rest _ => exact .inr (.inl (dest_of_withDest (hostWrite_withDest s.dest { s with inputs := rest } w) hstep))
  · unfold hostRead at hstep
    split at hstep <;> cases hstep
    exact .inr (.inl rfl)
  · next mask value rest hin =>
    unfold pollStatus at hstep
    split at hstep
    · cases hstep; exact .inr (.inl rfl)
    · exact .inr (hengine s.inputs (statusWord s) (by simp only [State.cause, hin]) hstep)
  · next rest hin =>
    unfold engineTurn at hstep
    split at hstep
    · exact .inr (hengine rest s.readData (by simp only [State.cause, hin]) hstep)
    · cases hstep; exact .inr (.inl rfl)
  · cases hstep; exact .inr (.inl rfl)
  · next a b rest hin => exact .inl ⟨a, b, rest, hin⟩
  · cases hstep; exact .inr (.inl rfl)

/-- Settles O58: outside DECODE the engine leaves the destination memory out, and in DECODE the two runs make the same
writes. -/
theorem engineIgnoresDestinationContents : Obligations.EngineIgnoresDestinationContents := by
  intro s t m h
  by_cases hp : s.phase = .decode
  · rw [engineStep_of_decode hp] at h
    rw [engineStep_of_decode (s := { s with dest := m }) hp]
    exact decodeStep_alike m h
  · refine ⟨m, ?_, ?_⟩
    · rw [engineStep_withDest hp, h]; rfl
    · rw [dest_of_withDest (engineStep_withDest hp s.dest) h]
      exact SameWrites.refl s.dest m

end Sys2Proof.Machine
end

section
/-! PROOFS. CMD words as fields: OPC in the low byte, the operand bits above it, reserved bits on top
(spec/30_encoding.md R101). A word matches a row of the opcode map exactly when its OPC is the row's and its reserved
bits are 0, and no word matches two rows (R102, R104). -/

namespace Sys2Proof

/-- Two concatenations are equal exactly when their parts are. -/
theorem append_eq_append_iff {m n : Nat} {x x' : BitVec m} {y y' : BitVec n} :
    x ++ y = x' ++ y' ↔ x = x' ∧ y = y' := by
  constructor
  · intro h
    have hx := congrArg (BitVec.extractLsb' n m) h
    have hy := congrArg (BitVec.extractLsb' 0 n) h
    rw [BitVec.extractLsb'_append_eq_left, BitVec.extractLsb'_append_eq_left] at hx
    rw [BitVec.extractLsb'_append_eq_right, BitVec.extractLsb'_append_eq_right] at hy
    exact ⟨hx, hy⟩
  · rintro ⟨rfl, rfl⟩
    rfl

/-- A word is its high field above its low one. -/
theorem append_halves {h l : Nat} (w : BitVec (h + l)) : w.extractLsb' l h ++ w.extractLsb' 0 l = w := by
  rw [BitVec.extractLsb'_append_extractLsb'_eq_extractLsb' (by simp)]
  exact BitVec.extractLsb'_eq_self

/-- A word is its high, middle and low field. -/
theorem append_fields {h m l : Nat} (w : BitVec (h + m + l)) :
    w.extractLsb' (l + m) h ++ w.extractLsb' l m ++ w.extractLsb' 0 l = w := by
  rw [BitVec.extractLsb'_append_extractLsb'_eq_extractLsb' rfl]
  exact append_halves w

/-- Under a mask that leaves the middle field out, a word compares by its high and its low field. -/
theorem and_mask_eq_iff {h m l : Nat} (w : BitVec (h + m + l)) (p : BitVec l) :
    w &&& (BitVec.allOnes h ++ 0#m ++ BitVec.allOnes l) = 0#h ++ 0#m ++ p ↔
      w.extractLsb' 0 l = p ∧ w.extractLsb' (l + m) h = 0#h := by
  conv_lhs => rw [← append_fields w]
  simp only [BitVec.and_append, append_eq_append_iff, BitVec.and_allOnes, BitVec.and_zero, and_true]
  exact and_comm

/-- The low byte of an opcode's words, OPC (spec/30_encoding.md R101, R102). -/
def Opcode.opc : Opcode → BitVec 8
  | .nop => 0x00#8
  | .loadBegin => 0x01#8
  | .loadEnd => 0x02#8
  | .abort => 0x03#8
  | .vacMipsize => 0x10#8
  | .vacOffset => 0x11#8
  | .pixDecode => 0x20#8
  | .blkDecode => 0x21#8

/-- How many bits above OPC an opcode takes its operands from; the bits above those are reserved
(spec/30_encoding.md R101). -/
def Opcode.operandBits : Opcode → Nat
  | .vacMipsize => 9
  | .pixDecode | .blkDecode => 8
  | .nop | .loadBegin | .loadEnd | .abort | .vacOffset => 0

/-- The word has the opcode's OPC, and its reserved bits are 0. -/
def Opcode.HasWord (op : Opcode) (w : Word) : Prop :=
  w.extractLsb' 0 8 = op.opc ∧ w.extractLsb' (8 + op.operandBits) (24 - op.operandBits) = 0#(24 - op.operandBits)

/-- A word matches a row of the opcode map exactly when it is a word of the row's opcode. -/
theorem matches_iff_hasWord {r : OpcodeRow} (hr : r ∈ opcodeMap) (w : Word) :
    w &&& r.mask = r.pattern ↔ r.opcode.HasWord w := by
  simp only [opcodeMap, List.mem_cons, List.not_mem_nil, or_false] at hr
  rcases hr with rfl | rfl | rfl | rfl | rfl | rfl | rfl | rfl
  · exact and_mask_eq_iff (h := 24) (m := 0) w 0x00#8
  · exact and_mask_eq_iff (h := 24) (m := 0) w 0x01#8
  · exact and_mask_eq_iff (h := 24) (m := 0) w 0x02#8
  · exact and_mask_eq_iff (h := 24) (m := 0) w 0x03#8
  · exact and_mask_eq_iff (h := 15) (m := 9) w 0x10#8
  · exact and_mask_eq_iff (h := 24) (m := 0) w 0x11#8
  · exact and_mask_eq_iff (h := 16) (m := 8) w 0x20#8
  · exact and_mask_eq_iff (h := 16) (m := 8) w 0x21#8

/-- Every opcode has a row. -/
theorem exists_row (op : Opcode) : ∃ r ∈ opcodeMap, r.opcode = op := by cases op <;> decide

/-- Two patterns that one word matches agree on the bits both masks compare. -/
theorem patterns_agree_of_matches {w p p' m m' : Word} (h : w &&& m = p) (h' : w &&& m' = p') :
    (p ^^^ p') &&& (m &&& m') = 0#32 := by
  subst h h'
  ext i hi
  simp only [BitVec.getElem_and, BitVec.getElem_xor, BitVec.getElem_zero]
  cases w[i] <;> cases m[i] <;> cases m'[i] <;> rfl

/-- R104: no word matches two rows. -/
theorem opcodeMap_disjoint :
    opcodeMap.Pairwise fun r r' => ∀ w : Word, ¬(w &&& r.mask = r.pattern ∧ w &&& r'.mask = r'.pattern) :=
  opcodeMap_apart.imp fun hne _ ⟨h, h'⟩ => hne (patterns_agree_of_matches h h')

/-- Rows with one OPC are rows of one opcode. -/
theorem opcode_eq_of_opc_eq :
    ∀ r ∈ opcodeMap, ∀ r' ∈ opcodeMap, r.opcode.opc = r'.opcode.opc → r.opcode = r'.opcode := by decide

/-- A row the decoder finds for a word is in the opcode map, and the word is one of its opcode's. -/
theorem hasWord_of_find? {w : Word} {r : OpcodeRow}
    (h : (opcodeMap.find? fun r => w &&& r.mask == r.pattern) = some r) : r ∈ opcodeMap ∧ r.opcode.HasWord w :=
  have hr := List.mem_of_find?_eq_some h
  ⟨hr, (matches_iff_hasWord hr w).mp (by simpa using List.find?_some h)⟩

/-- The decoder reads no opcode from exactly the words that match no row. -/
theorem opcodeOf_eq_none_iff {w : Word} : opcodeOf w = none ↔ ∀ r ∈ opcodeMap, w &&& r.mask ≠ r.pattern := by
  simp only [opcodeOf, Option.map_eq_none_iff, List.find?_eq_none, beq_iff_eq, ne_eq]

/-- The decoder reads an opcode from exactly that opcode's words. -/
theorem opcodeOf_eq_some_iff {w : Word} {op : Opcode} : opcodeOf w = some op ↔ op.HasWord w := by
  constructor
  · intro h
    obtain ⟨r, hfind, rfl⟩ := Option.map_eq_some_iff.mp h
    exact (hasWord_of_find? hfind).2
  · intro h
    obtain ⟨r, hr, rfl⟩ := exists_row op
    cases hop : opcodeOf w with
    | none => exact absurd ((matches_iff_hasWord hr w).mpr h) (opcodeOf_eq_none_iff.mp hop r hr)
    | some op' =>
      obtain ⟨r', hfind, rfl⟩ := Option.map_eq_some_iff.mp hop
      obtain ⟨hr', h'⟩ := hasWord_of_find? hfind
      exact congrArg some (opcode_eq_of_opc_eq r' hr' r hr (h'.1.symm.trans h.1))

/-- A word matches some row exactly when it is a word of some opcode. -/
theorem exists_match_iff {w : Word} :
    (∃ r ∈ opcodeMap, w &&& r.mask = r.pattern) ↔ ∃ op : Opcode, op.HasWord w := by
  constructor
  · rintro ⟨r, hr, h⟩
    exact ⟨r.opcode, (matches_iff_hasWord hr w).mp h⟩
  · rintro ⟨op, h⟩
    obtain ⟨r, hr, rfl⟩ := exists_row op
    exact ⟨r, hr, (matches_iff_hasWord hr w).mpr h⟩

/-- A word that matches no row is an illegal command. -/
theorem decodeCommand_illegal {w : Word} (h : ∀ r ∈ opcodeMap, w &&& r.mask ≠ r.pattern) :
    decodeCommand w = .refuse .illegalCommand := by
  simp only [decodeCommand, opcodeOf_eq_none_iff.mpr h]

/-- The words of the opcodes by the width of their operands, as R104 groups them. -/
theorem exists_hasWord_iff {w : Word} :
    (∃ op : Opcode, op.HasWord w) ↔
      (w.extractLsb' 0 8 ∈ [0x00#8, 0x01#8, 0x02#8, 0x03#8, 0x11#8] ∧ w.extractLsb' 8 24 = 0#24) ∨
      (w.extractLsb' 0 8 = 0x10#8 ∧ w.extractLsb' 17 15 = 0#15) ∨
      (w.extractLsb' 0 8 ∈ [0x20#8, 0x21#8] ∧ w.extractLsb' 16 16 = 0#16) := by
  constructor
  · rintro ⟨op, hopc, hres⟩
    cases op with
    | vacMipsize => exact .inr (.inl ⟨hopc, hres⟩)
    | pixDecode | blkDecode => exact .inr (.inr ⟨by rw [hopc]; decide, hres⟩)
    | _ => exact .inl ⟨by rw [hopc]; decide, hres⟩
  · simp only [List.mem_cons, List.not_mem_nil, or_false]
    rintro (⟨h | h | h | h | h, hres⟩ | ⟨h, hres⟩ | ⟨h | h, hres⟩)
    · exact ⟨.nop, h, hres⟩
    · exact ⟨.loadBegin, h, hres⟩
    · exact ⟨.loadEnd, h, hres⟩
    · exact ⟨.abort, h, hres⟩
    · exact ⟨.vacOffset, h, hres⟩
    · exact ⟨.vacMipsize, h, hres⟩
    · exact ⟨.pixDecode, h, hres⟩
    · exact ⟨.blkDecode, h, hres⟩

/-- R356: a write that the decoder refuses is that refusal's meaning. -/
theorem hostWrite_of_decode_refuse {s : Machine.State} {t : Txn} {r : Reject}
    (h : decode s.phase.reqType t = .refuse r) : Machine.hostWrite t s = Machine.refuseWrite r s := by
  simp only [Machine.hostWrite, h]

/-- Settles O3. The rows a word matches are the opcodes it is a word of; no two rows agree on the bits both compare;
and where no row matches the decoder refuses the word. -/
theorem illegalCommandWordsAreRefused : Obligations.IllegalCommandWordsAreRefused := by
  refine ⟨fun w => exists_match_iff.trans exists_hasWord_iff, opcodeMap_disjoint, fun w s h => ?_⟩
  exact hostWrite_of_decode_refuse ((decode_to_cmd _ w).trans (decodeCommand_illegal h))

end Sys2Proof
end

section
/-! PROOFS. The decoder and the encoder are inverse (spec/30_encoding.md R100 to R106): what each CMD word, push and
response reads as, and that the encoding of what it reads as gives it back bit for bit. -/

namespace Sys2Proof

/-! ### From the instruction to its write -/

/-- The encoding of VAC_MIPSIZE is read as VAC_MIPSIZE (R102). -/
theorem opcodeOf_mipsizeWord (level : Nat) (dsel : Bool) :
    opcodeOf (mipsizeWord level dsel) = some .vacMipsize :=
  opcodeOf_eq_some_iff.mpr <|
    (matches_iff_hasWord (r := ⟨.vacMipsize, 0x00000010#32, 0xFFFE00FF#32⟩) (by simp [opcodeMap]) _).mp
      (Laws.EncodedInRow.vacMipsize level dsel).2

theorem argField_mipsizeWord (level : Nat) (dsel : Bool) :
    argField (mipsizeWord level dsel) = BitVec.ofNat 8 level :=
  (BitVec.extractLsb'_append_eq_of_le (by omega)).trans BitVec.extractLsb'_append_eq_right

theorem dselField_mipsizeWord (level : Nat) (dsel : Bool) : dselField (mipsizeWord level dsel) = dsel := by
  simp only [dselField, mipsizeWord, BitVec.getLsbD_append]
  cases dsel <;> rfl

/-- A LEVEL that fits its field is read back from the word it was put in (R103). -/
theorem decodeCommand_mipsizeWord {level : Nat} (h : level ≤ 255) (dsel : Bool) :
    decodeCommand (mipsizeWord level dsel) = .run (.vacMipsize level dsel) := by
  simp only [decodeCommand, opcodeOf_mipsizeWord, argField_mipsizeWord, dselField_mipsizeWord, BitVec.toNat_ofNat,
    Nat.mod_eq_of_lt (Nat.lt_succ_of_le h)]

/-- Settles O1, by the instruction: the words that are literals are evaluated, LEVEL and DSEL and the bytes of a push are
read back from their fields, and the word ACK goes by the pending request. -/
theorem decodeOfEncodeIsTheInstruction : Obligations.DecodeOfEncodeIsTheInstruction := by
  intro i req hwf hreq
  cases i with
  | vacMipsize level dsel =>
    exact (decode_to_cmd ..).trans (decodeCommand_mipsizeWord (of_decide_eq_true hwf) dsel)
  | stream1 | stream2 | stream3 =>
    simp only [encode, decode_to_stream1, decode_to_stream2, decode_to_stream3, BitVec.extractLsb'_append_eq_right,
      BitVec.extractLsb'_append_eq_left]
  | stream4 bytes => exact decode_to_stream4 req bytes
  | rspAckAlloc =>
    cases req with
    | none | alloc => rfl
    | notify | append => cases hreq
  | rspAckNotify =>
    cases req with
    | notify => rfl
    | _ => cases hreq
  | rspAckAppend =>
    cases req with
    | append => rfl
    | _ => cases hreq
  | _ => rfl

/-! ### From the write to the instruction -/

/-- A CMD word is its four fields (R101). -/
theorem append_cmdFields (w : Word) :
    w.extractLsb' 17 15 ++ BitVec.ofBool (dselField w) ++ argField w ++ w.extractLsb' 0 8 = w := by
  have hdsel : BitVec.ofBool (dselField w) = w.extractLsb' 16 1 := by
    ext i hi
    obtain rfl : i = 0 := by omega
    simp [dselField]
  rw [hdsel, argField, BitVec.extractLsb'_append_extractLsb'_eq_extractLsb' (by rfl)]
  exact append_fields (h := 16) (m := 8) (l := 8) w

/-- A word of VAC_MIPSIZE is the one that its LEVEL and DSEL fields make. -/
theorem eq_of_hasWord_vacMipsize {w : Word} (h : Opcode.vacMipsize.HasWord w) :
    w = mipsizeWord (argField w).toNat (dselField w) := by
  obtain ⟨hopc, hres⟩ := h
  have hfields := append_cmdFields w
  rw [hopc, show w.extractLsb' 17 15 = 0#15 from hres] at hfields
  rw [mipsizeWord, BitVec.ofNat_toNat, BitVec.setWidth_eq]
  exact hfields.symm

/-- A word of an opcode without operands is its OPC. -/
theorem eq_of_hasWord_plain {op : Opcode} {w : Word} (hop : op.operandBits = 0) (h : op.HasWord w) :
    w = 0#24 ++ op.opc := by
  obtain ⟨hopc, hres⟩ := h
  rw [hop] at hres
  have hfields := append_halves (h := 24) (l := 8) w
  rw [hopc, show w.extractLsb' 8 24 = 0#24 from hres] at hfields
  exact hfields.symm

/-- A word of an opcode that takes a tag is its OPC and the tag above it. -/
theorem eq_of_hasWord_tagged {op : Opcode} {w : Word} (hop : op.operandBits = 8) (h : op.HasWord w) :
    w = 0#16 ++ argField w ++ op.opc := by
  obtain ⟨hopc, hres⟩ := h
  rw [hop] at hres
  have hfields := append_fields (h := 16) (m := 8) (l := 8) w
  rw [hopc, show w.extractLsb' 16 16 = 0#16 from hres] at hfields
  exact hfields.symm

/-- The instruction's encoding is the write, and the decoder reads it under the request. -/
structure Instr.ReadFrom (i : Instr) (req : ReqType) (t : Txn) : Prop where
  encodes : encode i = t
  wellFormed : i.wellFormed = true
  readUnder : i.readUnder req = true

/-- A field is the bits of its number. -/
theorem eq_ofNat_of_toNat {n k : Nat} {x : BitVec n} (h : x.toNat = k) : x = BitVec.ofNat n k := by
  rw [← h, BitVec.ofNat_toNat, BitVec.setWidth_eq]

/-- A PIX_DECODE that is run has the tag of its instruction (R121). -/
theorem decodePixTag_run (req : ReqType) {tag : BitVec 8} {i : Instr} (h : decodePixTag tag = .run i) :
    i.ReadFrom req (.to .cmd (pixWord tag)) := by
  unfold decodePixTag at h
  split at h <;> cases h
  all_goals next htag => rw [eq_ofNat_of_toNat htag]; exact ⟨rfl, rfl, rfl⟩

/-- A BLK_DECODE that is run has the tag of its instruction (R121). -/
theorem decodeBlkTag_run (req : ReqType) {tag : BitVec 8} {i : Instr} (h : decodeBlkTag tag = .run i) :
    i.ReadFrom req (.to .cmd (blkWord tag)) := by
  unfold decodeBlkTag at h
  split at h <;> cases h
  all_goals next htag => rw [eq_ofNat_of_toNat htag]; exact ⟨rfl, rfl, rfl⟩

/-- A CMD word that is an instruction is that instruction's encoding: its reserved bits are 0, so its fields are all
of it. -/
theorem decodeCommand_run (req : ReqType) {w : Word} {i : Instr} (h : decodeCommand w = .run i) :
    i.ReadFrom req (.to .cmd w) := by
  unfold decodeCommand at h
  cases hop : opcodeOf w with
  | none => rw [hop] at h; cases h
  | some op =>
    have hw := opcodeOf_eq_some_iff.mp hop
    rw [hop] at h
    cases op with
    | vacMipsize =>
      cases h
      exact ⟨congrArg _ (eq_of_hasWord_vacMipsize hw).symm, decide_eq_true (by omega), rfl⟩
    | pixDecode =>
      rw [eq_of_hasWord_tagged rfl hw]
      exact decodePixTag_run req h
    | blkDecode =>
      rw [eq_of_hasWord_tagged rfl hw]
      exact decodeBlkTag_run req h
    | _ =>
      cases h
      exact ⟨congrArg _ (eq_of_hasWord_plain rfl hw).symm, rfl, rfl⟩

/-- A response that is an instruction is ACK or FAIL, read under the pending request (R106). -/
theorem decodeResponse_run {req : ReqType} {v : Word} {i : Instr} (h : decodeResponse req v = .run i) :
    i.ReadFrom req (.to .rspCtrl v) := by
  unfold decodeResponse at h
  split_ifs at h with hack hfail
  · subst hack
    cases req <;> cases h <;> exact ⟨rfl, rfl, rfl⟩
  · subst hfail
    cases h
    exact ⟨rfl, rfl, rfl⟩

/-- A write that is an instruction goes to a register that carries instructions (R100). -/
theorem carriesInstr_of_decode_run {req : ReqType} {t : Txn} {i : Instr} (h : decode req t = .run i) :
    ∃ r, r.carriesInstr = true ∧ t = .to r t.data := by
  cases hal : offsetAligned t.offset with
  | false => rw [decode_misaligned req hal] at h; cases h
  | true =>
    cases hr : Reg.ofOffset t.offset with
    | none => rw [decode_unmapped req hal hr] at h; cases h
    | some r =>
      have ht : t = .to r t.data := congrArg (Txn.mk · t.data) (Reg.offset_of_ofOffset hr).symm
      refine ⟨r, ?_, ht⟩
      by_contra hc
      rw [ht, decode_to_store req _ (by simpa using hc)] at h
      cases h

/-- Settles O2, by the register the write goes to. -/
theorem encodeOfDecodeIsTheWrite : Obligations.EncodeOfDecodeIsTheWrite := by
  intro req t i h
  suffices hread : i.ReadFrom req t from ⟨hread.encodes, hread.wellFormed, hread.readUnder⟩
  obtain ⟨r, hr, ht⟩ := carriesInstr_of_decode_run h
  generalize t.data = v at ht
  subst ht
  cases r with
  | cmd => exact decodeCommand_run req ((decode_to_cmd req v).symm.trans h)
  | rspCtrl => exact decodeResponse_run ((decode_to_rspCtrl req v).symm.trans h)
  | stream1 =>
    cases (decode_to_stream1 req v).symm.trans h
    exact ⟨congrArg _ (append_halves (h := 24) (l := 8) v), rfl, rfl⟩
  | stream2 =>
    cases (decode_to_stream2 req v).symm.trans h
    exact ⟨congrArg _ (append_halves (h := 16) (l := 16) v), rfl, rfl⟩
  | stream3 =>
    cases (decode_to_stream3 req v).symm.trans h
    exact ⟨congrArg _ (append_halves (h := 8) (l := 24) v), rfl, rfl⟩
  | stream4 =>
    cases (decode_to_stream4 req v).symm.trans h
    exact ⟨rfl, rfl, rfl⟩
  | _ => cases hr

/-- Settles O4, by evaluation. -/
theorem wordsOfTheSpecDecode : Obligations.WordsOfTheSpecDecode := by
  unfold Obligations.WordsOfTheSpecDecode
  decide

end Sys2Proof
end

section
/-! PROOFS. The table of formats (spec/30_encoding.md R121, R122). -/

namespace Sys2Proof.Machine

/-- The tags that have a format. -/
theorem Format.ofTag_eq_none_iff (tag : Word) :
    Format.ofTag tag = none ↔ tag.toNat ∉ [0, 1, 2, 3, 4, 5, 6, 8, 11, 12, 13, 15] := by
  unfold Format.ofTag
  split <;> simp_all

/-- Settles O24: the unsupported tags by `Format.ofTag_eq_none_iff`, the rows of the supported ones by evaluation. -/
theorem formatTableIsTheSpecs : Obligations.FormatTableIsTheSpecs := by
  refine ⟨Format.ofTag_eq_none_iff, ?_⟩
  simp only [List.forall_mem_cons, List.not_mem_nil, IsEmpty.forall_iff, implies_true, and_true]
  exact ⟨⟨.rgba8888, rfl, rfl, rfl⟩, ⟨.abgr8888, rfl, rfl, rfl⟩, ⟨.rgb888, rfl, rfl, rfl⟩, ⟨.bgr888, rfl, rfl, rfl⟩,
    ⟨.rgb565, rfl, rfl, rfl⟩, ⟨.i8, rfl, rfl, rfl⟩, ⟨.ia88, rfl, rfl, rfl⟩, ⟨.a8, rfl, rfl, rfl⟩,
    ⟨.argb8888, rfl, rfl, rfl⟩, ⟨.bgra8888, rfl, rfl, rfl⟩, ⟨.dxt1, rfl, rfl, rfl⟩, ⟨.dxt5, rfl, rfl, rfl⟩⟩

end Sys2Proof.Machine
end

section
/-! PROOFS. Load control: which commands run in which phase, and what LOAD_BEGIN, LOAD_END, NOP and ABORT do
(spec/40_accumulator.md R150, R151, R155 to R158). -/

namespace Sys2Proof.Machine

section LoadControl
variable {s : State}

/-- R150: the commands that run while BUSY are NOP, ABORT and the writes to RSP_CTRL. -/
theorem exec_of_busy {i : Instr} (hb : s.busy = true) (hnop : i ≠ .nop) (habort : i ≠ .abort)
    (hrsp : (encode i).offset ≠ Reg.rspCtrl.offset) : exec i s = .next (raiseCmdError .busy s) := by
  cases i with
  | nop => exact absurd rfl hnop
  | abort => exact absurd rfl habort
  | rspAckAlloc | rspFailAlloc | rspAckNotify | rspAckAppend => exact absurd rfl hrsp
  | _ => exact unlessBusy_busy hb _

/-- ACCUM is not BUSY (spec/10_state.md R24). -/
theorem busy_of_accum (hp : s.phase = .accum) : s.busy = false := by rw [State.busy, hp]; rfl

theorem exec_loadBegin_of_accum (hp : s.phase = .accum) : exec .loadBegin s = .next (raiseCmdError .wrongPhase s) :=
  (unlessBusy_free (busy_of_accum hp) _).trans (if_pos hp)

theorem exec_loadBegin_of_free (hb : s.busy = false) (hp : s.phase ≠ .accum) :
    exec .loadBegin s = .next (beginLoad s) :=
  (unlessBusy_free hb _).trans (if_neg hp)

theorem exec_loadEnd_of_accum (hp : s.phase = .accum) : exec .loadEnd s = .next { s with phase := .parse } :=
  (unlessBusy_free (busy_of_accum hp) _).trans (if_pos hp)

theorem exec_loadEnd_of_free (hb : s.busy = false) (hp : s.phase ≠ .accum) :
    exec .loadEnd s = .next (raiseCmdError .wrongPhase s) :=
  (unlessBusy_free hb _).trans (if_neg hp)

end LoadControl

/-- R102: a CMD word is read as NOP only where it is NOP's encoding, the word 0. -/
theorem decodeCommand_eq_nop_iff {w : Word} : decodeCommand w = .run .nop ↔ w = 0x00000000#32 := by
  constructor
  · intro h
    have hdata := congrArg Txn.data (decodeCommand_run .none h).encodes
    exact hdata.symm
  · rintro rfl
    rfl

/-- Settles O16, by the instructions that `unlessBusy` guards. -/
theorem busyCommandsAreRefused : Obligations.BusyCommandsAreRefused :=
  fun _ _ hb hnop habort hrsp => exec_of_busy hb hnop habort hrsp

/-- Settles O18: between loads the machine is not BUSY and not in ACCUM; the other two clauses are ACCUM and BUSY. -/
theorem loadBeginAndLoadEndBoundTheAccumulation : Obligations.LoadBeginAndLoadEndBoundTheAccumulation := by
  refine fun s => ⟨fun hidle => ?_, fun hp => ?_, fun hb => ?_⟩
  · obtain ⟨hb, hp⟩ : s.busy = false ∧ s.phase ≠ .accum := by
      rcases hidle with hp | hp | hp <;> simp [State.busy, Phase.busy, hp]
    exact ⟨exec_loadBegin_of_free hb hp, exec_loadEnd_of_free hb hp⟩
  · exact ⟨exec_loadBegin_of_accum hp, exec_loadEnd_of_accum hp⟩
  · exact ⟨exec_of_busy hb (by simp) (by simp) (by decide), exec_of_busy hb (by simp) (by simp) (by decide)⟩

/-- Settles O19: NOP and ABORT are no `unlessBusy` commands, so each has one equation for all phases. -/
theorem nopAndAbortRunInEveryPhase : Obligations.NopAndAbortRunInEveryPhase :=
  ⟨fun _ => rfl, fun _ => decodeCommand_eq_nop_iff, fun _ => rfl⟩

end Sys2Proof.Machine
end

section
/-! PROOFS. The accumulator's capacity as the first doubling that holds its size, and what a byte push does in each
phase (spec/40_accumulator.md R152 to R154, R160). -/

namespace Sys2Proof.Machine

/-- Settles O22. The invariant gives the capacity as the answer of the doubling loop, which stops at the first doubling
that is large enough, and the offsets that ACC_MEM lists as those below ACC_SIZE. -/
theorem capacityIsTheFirstDoublingThatHolds : Obligations.CapacityIsTheFirstDoublingThatHolds := by
  refine fun s h => ⟨h.sizeFits, fun hb => ?_, fun hb => ?_⟩
  · obtain ⟨k, -, hdouble, -, hfirst⟩ := doubleUntil_spec doublingTurns s.accSize.toNat Config.accInitCapacity
    have hcap : s.accCap.toNat = 1000000 * 2 ^ k := (h.capacity_of_holdsBuffer hb).trans hdouble
    exact ⟨k, hcap, hcap ▸ h.sizeFits, hfirst⟩
  · have hcap : s.accCap.toNat = 0 := by rw [h.capacity, hb]; rfl
    have hsize : s.accSize.toNat = 0 := Nat.le_zero.mp (hcap ▸ h.sizeFits)
    have hmem := h.accListed
    rw [hsize] at hmem
    exact ⟨BitVec.eq_of_toNat_eq hcap, BitVec.eq_of_toNat_eq hsize, List.map_eq_nil_iff.mp hmem⟩

/-! ### The doubling loop -/

/-- R153: the loop ends at the first doubling that holds the new size, for every size a push can ask for. -/
theorem doubleUntil_of_first {newSize cap k : Nat} (hcap : 0 < cap) (hsize : newSize ≤ 2 ^ 33)
    (hfit : newSize ≤ cap * 2 ^ k) (hfirst : ∀ j < k, cap * 2 ^ j < newSize) :
    doubleUntil doublingTurns newSize cap = cap * 2 ^ k := by
  obtain ⟨k', hk', hstop, -, -⟩ := doubleUntil_spec doublingTurns newSize cap
  have hreach := le_doubleUntil hcap hsize
  have hle : ¬ k' < k := fun hlt => absurd (hfirst k' hlt) (by omega)
  exact doubleUntil_eq_of_first (by omega) hfit hfirst

/-- The loop does not pass a doubling that holds the new size. -/
theorem doubleUntil_le {fuel newSize cap m : Nat} (hfit : newSize ≤ cap * 2 ^ m) :
    doubleUntil fuel newSize cap ≤ cap * 2 ^ m := by
  obtain ⟨k, -, hstop, -, hfirst⟩ := doubleUntil_spec fuel newSize cap
  have hkm : k ≤ m := Nat.le_of_not_lt fun hlt => absurd (hfirst m hlt) (by omega)
  rw [hstop]
  exact Nat.mul_le_mul_left cap (Nat.pow_le_pow_right (by decide) hkm)

/-- Above a doubling the next one is the least. -/
theorem doubling_succ_le {cap m j : Nat} (h : cap * 2 ^ m < cap * 2 ^ j) : cap * 2 ^ (m + 1) ≤ cap * 2 ^ j :=
  have hmj : m < j := (Nat.pow_lt_pow_iff_right (by decide)).mp (Nat.lt_of_mul_lt_mul_left h)
  Nat.mul_le_mul_left cap (Nat.pow_le_pow_right (by decide) hmj)

/-- 00_scope.md R7: ACC_MAX_CAPACITY is a 32-bit value. -/
theorem accMaxCapacity_lt : Config.accMaxCapacity < 2 ^ 32 := lt_of_withinMax ((withinMax_iff ..).mpr (Nat.le_refl _))

/-- A capacity of at most ACC_MAX_CAPACITY is held by its register. -/
theorem toNat_ofNat_of_le_max {n : Nat} (h : n ≤ Config.accMaxCapacity) : (BitVec.ofNat 32 n).toNat = n := by
  have := accMaxCapacity_lt
  rw [BitVec.toNat_ofNat, Nat.mod_eq_of_lt (by omega)]

/-- R154: growth from a capacity above 0 is decided by ACC_MAX_CAPACITY alone. -/
theorem grow_of_pos {newSize cap : Nat} (hcap : 0 < cap) (hsize : newSize ≤ 2 ^ 33) :
    grow Config.accHeadroom.val newSize cap =
      if doubleUntil doublingTurns newSize cap ≤ Config.accMaxCapacity then
        .ok (doubleUntil doublingTurns newSize cap)
      else .outOfMemory := by
  have hreach := le_doubleUntil hcap hsize
  rcases grow_cases Config.accHeadroom.val newSize cap with ⟨hlt, -⟩ | ⟨-, hmax, hgrow⟩ | ⟨-, hmax, hgrow⟩
  · omega
  · exact hgrow.trans (if_pos hmax).symm
  · exact hgrow.trans (if_neg (Nat.not_le_of_lt hmax)).symm

/-! ### A byte push -/

/-- A STREAMn instruction is a push of its bytes. -/
theorem exec_of_pushed {i : Instr} {bs : List Byte} (h : instrPushed i = some bs) (s : State) :
    exec i s = pushBytes bs s := by
  cases i with
  | stream1 | stream2 | stream3 | stream4 => cases h; rfl
  | _ => cases h

/-- R105: a STREAMn instruction pushes at most four bytes. -/
theorem length_of_pushed {i : Instr} {bs : List Byte} (h : instrPushed i = some bs) : bs.length ≤ 4 := by
  cases i with
  | stream1 | stream2 | stream3 | stream4 => cases h; simp
  | _ => cases h

section Push
variable {s : State} {bs : List Byte}

theorem pushBytes_of_busy (bs : List Byte) (hb : s.busy = true) : pushBytes bs s = .next (raiseCmdError .busy s) :=
  unlessBusy_busy hb _

theorem pushBytes_of_free (bs : List Byte) (hb : s.busy = false) (hp : s.phase ≠ .accum) :
    pushBytes bs s = .next (raiseCmdError .wrongPhase s) :=
  (unlessBusy_free hb _).trans (if_neg hp)

/-- R152: the state after a push that grows the buffer to the capacity `cap`. -/
def State.append (s : State) (bs : List Byte) (cap : Nat) : State :=
  { s with
    accMem := s.accMem.writeList s.accSize.toNat bs
    accSize := BitVec.ofNat 32 (s.accSize.toNat + bs.length)
    accCap := BitVec.ofNat 32 cap }

/-- R152 to R154: in ACCUM a push appends where the grown capacity is allowed, else the load fails. -/
theorem pushBytes_of_accum (hp : s.phase = .accum) (hcap : 0 < s.accCap.toNat) (hlen : bs.length ≤ 4) {cap : Nat}
    (hgrown : doubleUntil doublingTurns (s.accSize.toNat + bs.length) s.accCap.toNat = cap) :
    pushBytes bs s =
      if cap ≤ Config.accMaxCapacity then .next (s.append bs cap) else .next (raiseLoadError .accGrowth s) := by
  have hsize := s.accSize.isLt
  have hgrow := grow_of_pos (newSize := s.accSize.toNat + bs.length) hcap (by omega)
  rw [hgrown] at hgrow
  rw [pushBytes, unlessBusy_free (busy_of_accum hp), if_pos hp, hgrow]
  by_cases hmax : cap ≤ Config.accMaxCapacity
  · simp only [if_pos hmax, State.append]
  · simp only [if_neg hmax]

end Push

/-- Settles O20. Every STREAMn is a push; in ACCUM its capacity is the doubling that the premises name as the first. -/
theorem streamPushesItsBytes : Obligations.StreamPushesItsBytes := by
  intro i bs s hi
  simp only [exec_of_pushed hi]
  refine ⟨fun hp hcap k hfit hfirst => ?_, pushBytes_of_busy bs, pushBytes_of_free bs⟩
  have hlen := length_of_pushed hi
  have hsize := s.accSize.isLt
  rw [pushBytes_of_accum hp hcap hlen (doubleUntil_of_first hcap (by omega) hfit hfirst)]
  constructor
  · intro hmax
    rw [if_pos hmax]
    exact ⟨_, rfl, fun _ hj => Memory.read_writeList_in _ _ hj, fun _ ha => Memory.read_writeList_out _ _ ha,
      toNat_ofNat_of_le_max (Nat.le_trans hfit hmax), toNat_ofNat_of_le_max hmax, rfl⟩
  · intro hmax
    rw [if_neg (Nat.not_le_of_lt hmax)]
    rfl

end Sys2Proof.Machine
end

section
/-! PROOFS. How the bytes of a load are cut into pushes does not matter (spec/40_accumulator.md R159): the state that
pushes of bytes D leave is a function of D, and pushes beyond the largest allowed doubling fail the load. -/

namespace Sys2Proof.Machine

/-- The `m`-th doubling of ACC_INIT_CAPACITY (R153). -/
def doubling (m : Nat) : Nat := Config.accInitCapacity * 2 ^ m

/-- The state of ACCUM after pushes of the bytes `D` in all: ACC_MEM is `D` from offset 0 on, and ACC_CAP is what
growing for `D` at once gives (R160). -/
def State.holding (s : State) (D : List Byte) : State :=
  { s with
    accMem := Memory.writeList 0 D []
    accSize := BitVec.ofNat 32 D.length
    accCap := BitVec.ofNat 32 (doubleUntil doublingTurns D.length Config.accInitCapacity) }

/-- The load has failed with (OUT_OF_MEMORY, ACC_GROWTH) (R154, spec/60_exceptions.md R353). -/
def State.failedGrowth (s : State) : Prop := s.phase = .failed ∧ s.errCode = 1#4 ∧ s.errInfo = 1#8

/-- The instructions are STREAMn pushes, one for each chunk of bytes. -/
abbrev Pushes : List Instr → List (List Byte) → Prop := List.Forall₂ fun i bs => instrPushed i = some bs

theorem pushes_of_map_eq {js : List Instr} {ds : List (List Byte)} (h : js.map instrPushed = ds.map some) :
    Pushes js ds := by
  rw [← List.forall₂_eq_eq_eq, List.forall₂_map_left_iff, List.forall₂_map_right_iff] at h
  exact h

section Chunks
variable {s t : State} {D bs : List Byte} {js : List Instr} {ds : List (List Byte)} {m : Nat}

/-- An empty buffer holds no bytes (R155). -/
theorem State.holding_nil (hsize : s.accSize = 0#32) (hcap : s.accCap = 1000000#32) (hmem : s.accMem = []) :
    s.holding [] = s := by
  cases s
  cases hsize
  cases hcap
  cases hmem
  rfl

/-! ### One push -/

/-- A buffer within an allowed doubling has the size of its bytes in ACC_SIZE and a capacity above 0, the doubling for
that size, in ACC_CAP. -/
theorem State.holding_registers (s : State) (hm : doubling m ≤ Config.accMaxCapacity)
    (hD : D.length ≤ doubling m) :
    (s.holding D).accSize.toNat = D.length ∧
      (s.holding D).accCap.toNat = doubleUntil doublingTurns D.length Config.accInitCapacity ∧
      0 < (s.holding D).accCap.toNat := by
  have hcap : (s.holding D).accCap.toNat = doubleUntil doublingTurns D.length Config.accInitCapacity :=
    toNat_ofNat_of_le_max (Nat.le_trans (doubleUntil_le hD) hm)
  refine ⟨toNat_ofNat_of_le_max (Nat.le_trans hD hm), hcap, ?_⟩
  obtain ⟨k, -, hdouble, -, -⟩ := doubleUntil_spec doublingTurns D.length Config.accInitCapacity
  rw [hcap, hdouble]
  exact Nat.mul_pos (by decide) (Nat.two_pow_pos k)

/-- The bytes of a push land after those the buffer holds. -/
theorem State.append_holding (hsize : (s.holding D).accSize.toNat = D.length) :
    (s.holding D).append bs (doubleUntil doublingTurns (D ++ bs).length Config.accInitCapacity) =
      s.holding (D ++ bs) := by
  rw [State.append, hsize]
  simp only [State.holding, Memory.writeList_append, Nat.zero_add, List.length_append]

/-- R152, R153: a push that stays within an allowed doubling leaves the buffer of all bytes so far. -/
theorem pushBytes_holding_of_le (hp : s.phase = .accum) (hlen : bs.length ≤ 4)
    (hm : doubling m ≤ Config.accMaxCapacity) (hfit : (D ++ bs).length ≤ doubling m) :
    pushBytes bs (s.holding D) = .next (s.holding (D ++ bs)) := by
  have hmax := accMaxCapacity_lt
  have hlenD : (D ++ bs).length = D.length + bs.length := List.length_append
  obtain ⟨hsize, hcap, hpos⟩ := s.holding_registers (D := D) hm (by omega)
  have hreach := le_doubleUntil (newSize := (D ++ bs).length) hpos (by omega)
  rw [hcap] at hreach
  have hgrown : doubleUntil doublingTurns ((s.holding D).accSize.toNat + bs.length) (s.holding D).accCap.toNat =
      doubleUntil doublingTurns (D ++ bs).length Config.accInitCapacity := by
    rw [hsize, hcap, ← hlenD]
    exact doubleUntil_doubleUntil (by decide) (by omega) (by omega) hreach
  rw [pushBytes_of_accum (s := s.holding D) hp hpos hlen hgrown, if_pos (Nat.le_trans (doubleUntil_le hfit) hm),
    State.append_holding hsize]

/-- R154: a push beyond the largest allowed doubling fails the load. -/
theorem pushBytes_holding_of_lt (hp : s.phase = .accum) (hlen : bs.length ≤ 4)
    (hm : doubling m ≤ Config.accMaxCapacity) (hM : Config.accMaxCapacity < doubling (m + 1))
    (hD : D.length ≤ doubling m) (hover : doubling m < (D ++ bs).length) :
    ∃ t, pushBytes bs (s.holding D) = .next t ∧ t.failedGrowth := by
  have hmax := accMaxCapacity_lt
  rw [List.length_append] at hover
  obtain ⟨hsize, hcap, hpos⟩ := s.holding_registers (D := D) hm hD
  have hreach := le_doubleUntil (newSize := (s.holding D).accSize.toNat + bs.length) hpos (by omega)
  have hgrown : Config.accMaxCapacity <
      doubleUntil doublingTurns ((s.holding D).accSize.toNat + bs.length) (s.holding D).accCap.toNat := by
    obtain ⟨k, -, hfirst, -, -⟩ := doubleUntil_spec doublingTurns D.length Config.accInitCapacity
    obtain ⟨l, -, hthen, -, -⟩ :=
      doubleUntil_spec doublingTurns ((s.holding D).accSize.toNat + bs.length) (s.holding D).accCap.toNat
    rw [hthen, hcap, hfirst, Nat.mul_assoc, ← Nat.pow_add, hsize] at hreach
    rw [hthen, hcap, hfirst, Nat.mul_assoc, ← Nat.pow_add]
    exact Nat.lt_of_lt_of_le hM (doubling_succ_le (Nat.lt_of_lt_of_le hover hreach))
  rw [pushBytes_of_accum (s := s.holding D) hp hpos hlen rfl, if_neg (Nat.not_le_of_lt hgrown)]
  exact ⟨_, rfl, rfl, rfl, rfl⟩

/-- A push after the load has failed is refused, and the load stays failed. -/
theorem pushBytes_failedGrowth (bs : List Byte) (h : s.failedGrowth) :
    ∃ t, pushBytes bs s = .next t ∧ t.failedGrowth := by
  obtain ⟨hp, hcode, hinfo⟩ := h
  exact ⟨_, pushBytes_of_free bs (by rw [State.busy, hp]; rfl) (by simp [hp]), hp, hcode, hinfo⟩

/-! ### Pushes in sequence -/

/-- The first instruction of a sequence answers the state the others run in. -/
theorem execAll_cons {i : Instr} (h : exec i s = .next t) : execAll (i :: js) s = execAll js t := by
  simp only [execAll, h]

/-- After the load has failed, any pushes leave it failed. -/
theorem execAll_failedGrowth (hpush : Pushes js ds) (h : s.failedGrowth) :
    ∃ t, execAll js s = .next t ∧ t.failedGrowth := by
  induction hpush generalizing s with
  | nil => exact ⟨s, rfl, h⟩
  | cons hi _ ih =>
    obtain ⟨t, ht, hfailed⟩ := pushBytes_failedGrowth _ h
    rw [execAll_cons ((exec_of_pushed hi s).trans ht)]
    exact ih hfailed

/-- Pushes whose bytes stay within an allowed doubling leave the buffer of all bytes, however they are cut. -/
theorem execAll_holding_of_le (hp : s.phase = .accum) (hpush : Pushes js ds)
    (hm : doubling m ≤ Config.accMaxCapacity) (hfit : (D ++ ds.flatten).length ≤ doubling m) :
    execAll js (s.holding D) = .next (s.holding (D ++ ds.flatten)) := by
  induction hpush generalizing D with
  | nil =>
    rw [List.flatten_nil, List.append_nil]
    rfl
  | @cons i d js ds hi _ ih =>
    rw [List.flatten_cons, ← List.append_assoc] at hfit ⊢
    have hd : (D ++ d).length ≤ doubling m := Nat.le_trans (by simp) hfit
    have hexec := (exec_of_pushed hi _).trans (pushBytes_holding_of_le hp (length_of_pushed hi) hm hd)
    rw [execAll_cons hexec]
    exact ih hfit

/-- Pushes whose bytes pass the largest allowed doubling fail the load, however they are cut. -/
theorem execAll_holding_of_lt (hp : s.phase = .accum) (hpush : Pushes js ds)
    (hm : doubling m ≤ Config.accMaxCapacity) (hM : Config.accMaxCapacity < doubling (m + 1))
    (hD : D.length ≤ doubling m) (hover : doubling m < (D ++ ds.flatten).length) :
    ∃ t, execAll js (s.holding D) = .next t ∧ t.failedGrowth := by
  induction hpush generalizing D with
  | nil =>
    rw [List.flatten_nil, List.append_nil] at hover
    omega
  | @cons i d js ds hi hjs ih =>
    have hlen := length_of_pushed hi
    by_cases hd : (D ++ d).length ≤ doubling m
    · rw [execAll_cons ((exec_of_pushed hi _).trans (pushBytes_holding_of_le hp hlen hm hd))]
      exact ih hd (by rwa [List.append_assoc])
    · obtain ⟨t, ht, hfailed⟩ := pushBytes_holding_of_lt hp hlen hm hM hD (Nat.lt_of_not_le hd)
      rw [execAll_cons ((exec_of_pushed hi _).trans ht)]
      exact execAll_failedGrowth hjs hfailed

/-- ACC_MEM of a buffer that holds `D` reads as `D`. -/
theorem State.holding_read (s : State) (D : List Byte) (a : Nat) : (s.holding D).accMem.read a = D[a]? := by
  rcases Nat.lt_or_ge a D.length with ha | ha
  · have hin := Memory.read_writeList_in [] D (a := 0) ha
    rwa [Nat.zero_add] at hin
  · rw [List.getElem?_eq_none ha]
    exact Memory.read_writeList_out [] D (.inr (by omega))

end Chunks

/-- Settles O21: the empty buffer holds no bytes, and what pushes leave depends on their bytes in all. -/
theorem chunkingDoesNotMatter : Obligations.ChunkingDoesNotMatter := by
  intro s js ks ds es m hp hsize hcap hmem hjs hks heq hm hM
  replace hjs := pushes_of_map_eq hjs
  replace hks := pushes_of_map_eq hks
  rw [← State.holding_nil hsize hcap hmem]
  constructor
  · intro hfit
    obtain ⟨k, -, hdouble, -, hfirst⟩ := doubleUntil_spec doublingTurns ds.flatten.length Config.accInitCapacity
    obtain ⟨hsizeD, hcapD, -⟩ := s.holding_registers hm hfit
    refine ⟨s.holding ds.flatten, k, execAll_holding_of_le (D := []) hp hjs hm hfit, ?_, hsizeD, s.holding_read _,
      hcapD.trans hdouble, ?_, hfirst, rfl⟩
    · rw [heq] at hfit ⊢
      exact execAll_holding_of_le (D := []) hp hks hm hfit
    · have hlt : ds.flatten.length < 2 ^ 33 := by have := accMaxCapacity_lt; omega
      have hreach := le_doubleUntil (cap := Config.accInitCapacity) (by decide) (Nat.le_of_lt hlt)
      rwa [hdouble] at hreach
  · intro hover
    obtain ⟨t, ht, hpt, hct, hit⟩ := execAll_holding_of_lt (s := s) (D := []) hp hjs hm hM (Nat.zero_le _) hover
    rw [heq] at hover
    obtain ⟨u, hu, hpu, hcu, hiu⟩ := execAll_holding_of_lt (s := s) (D := []) hp hks hm hM (Nat.zero_le _) hover
    exact ⟨t, u, ht, hu, hpt, hct, hit, hpu, hcu, hiu⟩

end Sys2Proof.Machine
end

section
/-! PROOFS. The PARSE step: the little-endian latch, the payload's size, and the checks in their order
(spec/41_header.md R180 to R186, spec/42_volume_address.md R206). -/

namespace Sys2Proof.Machine

/-! ### Little-endian fields -/

theorem leNat_one (bs : List Byte) (i : Nat) : leNat bs i 1 = (bs.getD i 0).toNat := by
  simp only [leNat, Nat.mul_zero, Nat.add_zero]

/-- A little-endian number of two parts is the low part and, above its bytes, the high part. -/
theorem leNat_add (bs : List Byte) (i m n : Nat) :
    leNat bs i (m + n) = leNat bs i m + 256 ^ m * leNat bs (i + m) n := by
  induction m generalizing i with
  | zero => simp [leNat]
  | succ m ih =>
    rw [Nat.add_right_comm m 1 n, leNat, leNat, ih, Nat.add_assoc i 1 m, Nat.add_comm 1 m, Nat.pow_succ]
    ring

/-- The value of a word is its low part and, shifted, its high part. -/
theorem toNat_append_eq_add {m n : Nat} (hi : BitVec m) (lo : BitVec n) :
    (hi ++ lo).toNat = lo.toNat + 2 ^ n * hi.toNat := by
  rw [BitVec.toNat_append, ← Nat.shiftLeft_add_eq_or_of_lt lo.isLt, Nat.shiftLeft_eq, Nat.mul_comm, Nat.add_comm]

theorem le16_toNat (bs : List Byte) (i : Nat) : (le16 bs i).toNat = leNat bs i 2 := by
  rw [le16, toNat_append_eq_add, leNat_add bs i 1 1, leNat_one, leNat_one]
  rfl

theorem le32_toNat (bs : List Byte) (i : Nat) : (le32 bs i).toNat = leNat bs i 4 := by
  rw [le32, toNat_append_eq_add, leNat_add bs i 2 2, le16_toNat, le16_toNat]
  rfl

/-! ### What the latch holds -/

/-- R111: the latched signature is the spec's exactly where the first four bytes are. -/
theorem latchHeader_sig_eq_iff (h : List Byte) : (latchHeader h).sig = signature ↔ leNat h 0 4 = 0x00465456 := by
  rw [← le32_toNat, ← BitVec.toNat_inj]
  rfl

theorem latchHeader_frames_eq_zero_iff (h : List Byte) : (latchHeader h).frames = 0 ↔ leNat h 24 2 = 0 := by
  rw [← le16_toNat, ← BitVec.toNat_inj]
  rfl

/-! ### The size of the payload -/

theorem Geometry.mipSum_eq_sum (g : Geometry) (lo hi : Nat) :
    g.mipSum lo hi = ∑ l ∈ Finset.Ico lo hi, g.mipSize l g.depth := rfl

/-- R204: the payload holds every level of every frame. -/
theorem Geometry.total_eq_sum (g : Geometry) :
    g.total = (∑ l ∈ Finset.range g.mips, g.mipSize l g.depth) * g.frames := by
  rw [Geometry.total, Geometry.mipSum_eq_sum, Nat.Ico_zero_eq_range]

/-! ### The checks after the latch -/

section Validate
variable {s : State}

/-- R182: the checks keep the latch, whatever they find. -/
@[simp] theorem validateHeader_hdr (s : State) : (validateHeader s).hdr = s.hdr := by
  rcases validateHeader_cases s with ⟨e, heq⟩ | ⟨f, -, -, -, -, heq⟩ <;> simp only [heq, raiseLoadError_hdr]

/-- R184: a wrong signature is found first. -/
theorem validateHeader_of_sig_ne (hsig : s.hdr.sig ≠ signature) :
    validateHeader s = raiseLoadError .badSignature s := if_pos hsig

/-- R185: the frame count is checked after the signature. -/
theorem validateHeader_of_frames_eq_zero (hsig : s.hdr.sig = signature) (hframes : s.hdr.frames = 0) :
    validateHeader s = raiseLoadError .zeroFrames s := by
  rw [validateHeader, if_neg (not_not_intro hsig), if_pos hframes]

/-- R186: a header with the signature and a frame goes on to its payload. -/
theorem validateHeader_of_frames_ne_zero (hsig : s.hdr.sig = signature) (hframes : s.hdr.frames ≠ 0) :
    validateHeader s = locatePayload s := by
  rw [validateHeader, if_neg (not_not_intro hsig), if_neg hframes]

theorem locatePayload_of_unsupported (htag : Format.ofTag s.hdr.format = none) :
    locatePayload s = raiseLoadError .unsupportedFormat s := by
  simp only [locatePayload, htag]

/-- R206: with a supported tag, the payload is compared with the bytes accumulated. -/
theorem locatePayload_of_supported {f : Format} (htag : Format.ofTag s.hdr.format = some f) :
    locatePayload s =
      if (s.geometry f).total > s.accSize.toNat then raiseLoadError .payloadUnderrun s
      else { s with
        payTotal := BitVec.ofNat 32 (s.geometry f).total
        payStart := BitVec.ofNat 32 (s.accSize.toNat - (s.geometry f).total)
        frameIdx := 0
        phase := .frameStart } := by
  simp only [locatePayload, htag]

end Validate

/-! ### The step -/

section Parse
variable {s : State} {h : List Byte}

theorem engineStep_of_parse (hp : s.phase = .parse) : engineStep s = parseStep s := by
  simp only [engineStep, hp]

/-- R181: a file shorter than the header fails before the latch is written. -/
theorem engineStep_of_short (hp : s.phase = .parse) (hshort : s.accSize.toNat < hdrBytes) :
    engineStep s = .next (raiseLoadError .shortHeader s) :=
  (engineStep_of_parse hp).trans (if_pos hshort)

/-- R182: with a whole header, the step checks the state that holds its latch. -/
theorem engineStep_of_header (hp : s.phase = .parse) (hread : accRead s 0 hdrBytes = some h) :
    engineStep s = .next (validateHeader { s with hdr := latchHeader h }) := by
  obtain ⟨hsize, -, -⟩ := (accRead_eq_some s 0 hdrBytes h).mp hread
  rw [engineStep_of_parse hp, parseStep, if_neg (by omega), hread]

end Parse

/-- Settles O36: the checks keep the latch, and every field of it is a little-endian number. -/
theorem parseLatchesTheHeader : Obligations.ParseLatchesTheHeader := by
  intro s h hp hread
  refine ⟨_, engineStep_of_header hp hread, ?_⟩
  simp only [validateHeader_hdr, latchHeader, le16_toNat, le32_toNat, leNat_one, and_self]

/-- Settles O37: a file without a header fails at once; with one, each clause is the check that decides it. -/
theorem parseChecksInOrder : Obligations.ParseChecksInOrder := by
  refine ⟨fun s hp hshort => engineStep_of_short hp hshort, ?_⟩
  intro s u h hp hread hu
  have hstep : engineStep s = .next (validateHeader u) := hu ▸ engineStep_of_header hp hread
  have hsig : u.hdr.sig = signature ↔ leNat h 0 4 = 0x00465456 := hu ▸ latchHeader_sig_eq_iff h
  have hframes : u.hdr.frames = 0 ↔ leNat h 24 2 = 0 := hu ▸ latchHeader_frames_eq_zero_iff h
  have hsize : u.accSize = s.accSize := hu ▸ rfl
  simp only [hstep, ← hsize, ← hsig, ne_eq, ← hframes]
  refine ⟨fun hbad => ?_, fun hgood hzero => ?_, fun hgood hsome htag => ?_, fun f total hgood hsome htag htotal => ?_⟩
  · rw [validateHeader_of_sig_ne hbad]
    rfl
  · rw [validateHeader_of_frames_eq_zero hgood hzero]
    rfl
  · rw [validateHeader_of_frames_ne_zero hgood hsome, locatePayload_of_unsupported htag]
    rfl
  · replace htotal : (u.geometry f).total = total := (Geometry.total_eq_sum _).trans htotal.symm
    rw [validateHeader_of_frames_ne_zero hgood hsome, locatePayload_of_supported htag, htotal]
    refine ⟨fun hover => ?_, fun hfits => ?_⟩
    · rw [if_pos hover]
      rfl
    · rw [if_neg (Nat.not_lt_of_le hfits)]
      rfl

end Sys2Proof.Machine
end

section
/-! PROOFS. Mip sizes: a slice as units across, units down and the bytes of a unit, and from the rise of `units` the
fall of the sizes with the level (spec/42_volume_address.md R200 to R202, R211). -/

namespace Sys2Proof.Machine

/-! ### The dimensions of a level -/

/-- R200, the shift as a division. -/
theorem mipDim_eq (n level : Nat) : mipDim n level = max 1 (n / 2 ^ level) := by
  rw [mipDim, Nat.shiftRight_eq_div_pow]

theorem one_le_mipDim (n level : Nat) : 1 ≤ mipDim n level := Nat.le_max_left ..

theorem mipDim_one (level : Nat) : mipDim 1 level = 1 := by
  rw [mipDim_eq, Nat.max_eq_left (Nat.div_le_self ..)]

/-- R211: a dimension does not rise with the level. -/
theorem mipDim_antitone (n : Nat) : Antitone (mipDim n) := fun l level hle => by
  simp only [mipDim_eq]
  exact max_le_max_left 1 (Nat.div_le_div_left (Nat.pow_le_pow_right Nat.two_pos hle) (Nat.two_pow_pos l))

theorem mipDim_lt {n b : Nat} (h1 : 1 < b) (hn : n < b) (level : Nat) : mipDim n level < b := by
  rw [mipDim_eq]
  exact max_lt h1 (Nat.lt_of_le_of_lt (Nat.div_le_self ..) hn)

/-! ### A slice in units -/

/-- The units in which the spec counts `n` pixels of a row or a column: the pixels, or the blocks that cover them, or
under FLOOR the whole blocks in them. -/
def Geometry.units (g : Geometry) (n : Nat) : Nat :=
  match g.format.unit with
  | .pixel _ => n
  | .block _ => if g.floor then n / 4 else ceilQuarter n

/-- Bytes per unit (spec/30_encoding.md R121). -/
def FormatUnit.bytes : FormatUnit → Nat
  | .pixel bpp => bpp
  | .block bb => bb

section Units
variable {g : Geometry}

theorem Geometry.units_of_pixel {bpp : Nat} (hunit : g.format.unit = .pixel bpp) (n : Nat) : g.units n = n := by
  simp only [Geometry.units, hunit]

theorem Geometry.units_of_ceil {bb : Nat} (hunit : g.format.unit = .block bb) (hfloor : g.floor = false) (n : Nat) :
    g.units n = (n + 3) / 4 := by
  simp only [Geometry.units, hunit, hfloor, Bool.false_eq_true, if_false, ceilQuarter]

theorem Geometry.units_of_floor {bb : Nat} (hunit : g.format.unit = .block bb) (hfloor : g.floor = true) (n : Nat) :
    g.units n = n / 4 := by
  simp only [Geometry.units, hunit, hfloor, if_true]

/-- R201: a slice is its rows of units, for every kind of unit. -/
theorem Geometry.sliceBytes_eq (g : Geometry) (level : Nat) :
    g.sliceBytes level = g.units (mipDim g.width level) * g.units (mipDim g.height level) * g.format.unit.bytes := by
  unfold Geometry.sliceBytes Geometry.units FormatUnit.bytes
  cases g.format.unit with
  | pixel bpp => rfl
  | block bb => cases g.floor <;> rfl

theorem Geometry.units_monotone (g : Geometry) : Monotone g.units := fun a b hab => by
  unfold Geometry.units ceilQuarter
  cases g.format.unit with
  | pixel bpp => exact hab
  | block bb => cases g.floor <;> simp only [Bool.false_eq_true, if_false, if_true] <;> omega

theorem Geometry.floor_of_block {bb : Nat} (hround : (∃ bpp, g.format.unit = .pixel bpp) ∨ g.floor = false)
    (hunit : g.format.unit = .block bb) : g.floor = false :=
  hround.resolve_left fun ⟨_, hpixel⟩ => by simp [hunit] at hpixel

/-- Without FLOOR rounding of blocks, one pixel takes one unit. -/
theorem Geometry.units_one (hround : (∃ bpp, g.format.unit = .pixel bpp) ∨ g.floor = false) : g.units 1 = 1 := by
  cases hunit : g.format.unit with
  | pixel bpp => exact Geometry.units_of_pixel hunit 1
  | block bb => exact Geometry.units_of_ceil hunit (Geometry.floor_of_block hround hunit) 1

/-- R202 in units. -/
theorem Geometry.mipSize_eq (g : Geometry) (level d : Nat) :
    g.mipSize level d =
      g.units (mipDim g.width level) * g.units (mipDim g.height level) * g.format.unit.bytes * mipDim d level := by
  rw [Geometry.mipSize, Geometry.sliceBytes_eq]

/-- R202 in numbers, for a pixel format. -/
theorem Geometry.mipSize_of_pixel {bpp : Nat} (hunit : g.format.unit = .pixel bpp) (level d : Nat) :
    g.mipSize level d =
      max 1 (g.width / 2 ^ level) * max 1 (g.height / 2 ^ level) * bpp * max 1 (d / 2 ^ level) := by
  simp only [Geometry.mipSize_eq, Geometry.units_of_pixel hunit, hunit, FormatUnit.bytes, mipDim_eq]

/-- R202 in numbers, for a block format that rounds up. -/
theorem Geometry.mipSize_of_ceil {bb : Nat} (hunit : g.format.unit = .block bb) (hfloor : g.floor = false)
    (level d : Nat) :
    g.mipSize level d = (max 1 (g.width / 2 ^ level) + 3) / 4 * ((max 1 (g.height / 2 ^ level) + 3) / 4) * bb
      * max 1 (d / 2 ^ level) := by
  simp only [Geometry.mipSize_eq, Geometry.units_of_ceil hunit hfloor, hunit, FormatUnit.bytes, mipDim_eq]

/-- R202 in numbers, for a block format that rounds down. -/
theorem Geometry.mipSize_of_floor {bb : Nat} (hunit : g.format.unit = .block bb) (hfloor : g.floor = true)
    (level d : Nat) :
    g.mipSize level d = max 1 (g.width / 2 ^ level) / 4 * (max 1 (g.height / 2 ^ level) / 4) * bb
      * max 1 (d / 2 ^ level) := by
  simp only [Geometry.mipSize_eq, Geometry.units_of_floor hunit hfloor, hunit, FormatUnit.bytes, mipDim_eq]

/-- R202: at depth 1 a level is one slice. -/
theorem Geometry.mipSize_one (g : Geometry) (level : Nat) : g.mipSize level 1 = g.sliceBytes level := by
  rw [Geometry.mipSize, mipDim_one, Nat.mul_one]

/-! ### Levels that rise -/

/-- R211: a volume's size does not rise with the level. -/
theorem Geometry.mipSize_antitone (g : Geometry) (d : Nat) : Antitone fun level => g.mipSize level d :=
  fun l level hle => by
  simp only [Geometry.mipSize_eq]
  have hunits (n : Nat) : g.units (mipDim n level) ≤ g.units (mipDim n l) := g.units_monotone (mipDim_antitone n hle)
  exact Nat.mul_le_mul (Nat.mul_le_mul_right _ (Nat.mul_le_mul (hunits g.width) (hunits g.height)))
    (mipDim_antitone d hle)

/-- A dimension that has come down to 1 stays there. -/
theorem mipDim_eq_one_of_le {n l level : Nat} (hle : level ≤ l) (h : mipDim n level = 1) : mipDim n l = 1 :=
  Nat.le_antisymm (h ▸ mipDim_antitone n hle) (one_le_mipDim n l)

/-- A dimension that has come down to one unit stays there. -/
theorem Geometry.units_mipDim_eq_one_of_le {n l level : Nat} (hone : g.units 1 = 1) (hle : level ≤ l)
    (h : g.units (mipDim n level) = 1) : g.units (mipDim n l) = 1 :=
  Nat.le_antisymm (h ▸ g.units_monotone (mipDim_antitone n hle)) (hone ▸ g.units_monotone (one_le_mipDim n l))

/-- R211: sizes are constant from a level that is one unit wide, one unit high and one slice deep. -/
theorem Geometry.mipSize_eq_of_le {d l level : Nat} (hone : g.units 1 = 1)
    (hwidth : g.units (mipDim g.width level) = 1) (hheight : g.units (mipDim g.height level) = 1)
    (hdepth : mipDim d level = 1) (hle : level ≤ l) : g.mipSize l d = g.mipSize level d := by
  rw [Geometry.mipSize_eq, Geometry.mipSize_eq, hwidth, hheight, hdepth, mipDim_eq_one_of_le hle hdepth,
    Geometry.units_mipDim_eq_one_of_le hone hle hwidth, Geometry.units_mipDim_eq_one_of_le hone hle hheight]

/-- One block covers 1 to 4 pixels. -/
theorem Geometry.units_mipDim_of_ceil {bb n level : Nat} (hunit : g.format.unit = .block bb) (hfloor : g.floor = false)
    (h : mipDim n level ≤ 4) : g.units (mipDim n level) = 1 := by
  have hpos := one_le_mipDim n level
  rw [Geometry.units_of_ceil hunit hfloor]
  omega

/-- R201: under FLOOR fewer than 4 pixels hold no block. -/
theorem Geometry.mipSize_of_floor_lt {bb d level : Nat} (hunit : g.format.unit = .block bb) (hfloor : g.floor = true)
    (h : mipDim g.width level < 4 ∨ mipDim g.height level < 4) : g.mipSize level d = 0 := by
  rw [Geometry.mipSize_eq, Geometry.units_of_floor hunit hfloor, Geometry.units_of_floor hunit hfloor]
  rcases h with h | h <;> simp [Nat.div_eq_of_lt h]

end Units

/-- Settles O27: the sizes are constant where each side is one unit, which for pixels is 1 and for blocks 1 to 4. -/
theorem mipSizesDoNotRise : Obligations.MipSizesDoNotRise := by
  refine fun g d level => ⟨g.mipSize_antitone d (Nat.le_succ level), ?_, ?_, ?_⟩
  · rintro ⟨bpp, hunit⟩ hwidth hheight hdepth l hle
    have hunits := Geometry.units_of_pixel hunit
    exact Geometry.mipSize_eq_of_le (hunits 1) ((hunits _).trans hwidth) ((hunits _).trans hheight) hdepth hle
  · rintro ⟨bb, hunit⟩ hfloor hwidth hheight hdepth l hle
    exact Geometry.mipSize_eq_of_le (Geometry.units_one (.inr hfloor))
      (Geometry.units_mipDim_of_ceil hunit hfloor hwidth) (Geometry.units_mipDim_of_ceil hunit hfloor hheight)
      hdepth hle
  · rintro ⟨bb, hunit⟩ hfloor hsmall
    exact Geometry.mipSize_of_floor_lt hunit hfloor hsmall

end Sys2Proof.Machine
end

section
/-! PROOFS. Where frames and slices lie in the payload (spec/42_volume_address.md R203, R204, R212, R213). -/

namespace Sys2Proof.Machine

section Payload
variable {g : Geometry}

/-- R212: the offset is linear in the frame. -/
theorem Geometry.offset_succ_frame (g : Geometry) (frame face slice m : Nat) :
    g.offset (frame + 1) face slice m = g.offset frame face slice m + g.mipSize m g.depth := by
  simp only [Geometry.offset]
  ring

/-- R203 and R204: the level and the smaller levels before it are part of the payload. -/
theorem Geometry.mipSize_add_mipSum_mul_frames_le_total {m : Nat} (hm : m < g.mips) :
    (g.mipSize m g.depth + g.mipSum (m + 1) g.mips) * g.frames ≤ g.total := by
  refine Nat.mul_le_mul_right g.frames ?_
  rw [Geometry.mipSum_eq_sum, Geometry.mipSum_eq_sum,
    ← Finset.sum_eq_sum_Ico_succ_bot hm fun l => g.mipSize l g.depth]
  exact Finset.sum_le_sum_of_subset (Finset.Ico_subset_Ico_left (Nat.zero_le m))

/-- R202: the slices up to and with slice `sl` lie in their volume. -/
theorem Geometry.mipSize_one_mul_succ_le {sl d m : Nat} (hsl : sl < mipDim d m) :
    g.mipSize m 1 * (sl + 1) ≤ g.mipSize m d := by
  rw [Geometry.mipSize_one]
  exact Nat.mul_le_mul_left (g.sliceBytes m) hsl

/-- R213: a slice of a present frame and level ends inside the payload. -/
theorem Geometry.offset_add_mipSize_le_total {m f sl : Nat} (hm : m < g.mips) (hf : f < g.frames)
    (hsl : sl < mipDim g.depth m) : g.offset f 0 sl m + g.mipSize m 1 ≤ g.total := by
  have hslice : g.mipSize m 1 * (sl + 1) ≤ g.mipSize m g.depth := Geometry.mipSize_one_mul_succ_le hsl
  have hframe : g.mipSize m g.depth * (f + 1) ≤ g.mipSize m g.depth * g.frames := Nat.mul_le_mul_left _ hf
  calc g.offset f 0 sl m + g.mipSize m 1
      = g.mipSum (m + 1) g.mips * g.frames + g.mipSize m g.depth * f + g.mipSize m 1 * (sl + 1) := by
        simp only [Geometry.offset]
        ring
    _ ≤ g.mipSum (m + 1) g.mips * g.frames + g.mipSize m g.depth * f + g.mipSize m g.depth :=
        Nat.add_le_add_left hslice _
    _ = g.mipSum (m + 1) g.mips * g.frames + g.mipSize m g.depth * (f + 1) := by ring
    _ ≤ g.mipSum (m + 1) g.mips * g.frames + g.mipSize m g.depth * g.frames := Nat.add_le_add_left hframe _
    _ = (g.mipSize m g.depth + g.mipSum (m + 1) g.mips) * g.frames := by ring
    _ ≤ g.total := Geometry.mipSize_add_mipSum_mul_frames_le_total hm

/-- R207: what a frame's decode reads is counted in the units of a slice, blocks always rounded up. -/
theorem Geometry.frameReadBytes_eq (hround : (∃ bpp, g.format.unit = .pixel bpp) ∨ g.floor = false) :
    g.frameReadBytes = g.units g.width * g.units g.height * g.format.unit.bytes := by
  cases hunit : g.format.unit with
  | pixel bpp => simp only [Geometry.frameReadBytes, hunit, Geometry.units_of_pixel hunit, FormatUnit.bytes]
  | block bb =>
    have hunits := Geometry.units_of_ceil hunit (Geometry.floor_of_block hround hunit)
    simp only [Geometry.frameReadBytes, hunit, hunits, ceilQuarter, FormatUnit.bytes]

/-- R213: a dimension of the top level is the header's, raised to 1, so the slice holds what the decode reads. -/
theorem Geometry.frameReadBytes_le_mipSize (hround : (∃ bpp, g.format.unit = .pixel bpp) ∨ g.floor = false) :
    g.frameReadBytes ≤ g.mipSize 0 1 := by
  have hunits (n : Nat) : g.units n ≤ g.units (mipDim n 0) := g.units_monotone (Nat.le_max_right 1 n)
  rw [Geometry.frameReadBytes_eq hround, Geometry.mipSize_one, Geometry.sliceBytes_eq]
  exact Nat.mul_le_mul_right _ (Nat.mul_le_mul (hunits g.width) (hunits g.height))

end Payload

/-- Settles O28: the frame's stride, the end of each slice in the payload, and what a decode reads in its slice. -/
theorem slicesLieInsideThePayload : Obligations.SlicesLieInsideThePayload :=
  fun g => ⟨fun f => g.offset_succ_frame f 0 0 0, fun _ _ _ => Geometry.offset_add_mipSize_le_total,
    Geometry.frameReadBytes_le_mipSize⟩

end Sys2Proof.Machine
end

section
/-! PROOFS. The commands VAC_MIPSIZE and VAC_OFFSET: an equation for each outcome, and from the widths of the header
latch the bounds of what they store (spec/42_volume_address.md R208 to R210). -/

namespace Sys2Proof.Machine

/-! ### Bounds -/

/-- The geometry is one that the registers of the header latch can hold (spec/10_state.md R37). -/
structure Geometry.FitsLatch (g : Geometry) : Prop where
  width : g.width < 2 ^ 16
  height : g.height < 2 ^ 16
  depth : g.depth < 2 ^ 16
  mips : g.mips < 2 ^ 8
  frames : g.frames < 2 ^ 16

theorem State.geometry_fitsLatch (f : Format) (s : State) : (s.geometry f).FitsLatch where
  width := s.hdr.width.isLt
  height := s.hdr.height.isLt
  depth := s.hdr.depth.isLt
  mips := s.hdr.mipcount.isLt
  frames := s.hdr.frames.isLt

section Bounds
variable {g : Geometry}

/-- R121: a pixel has at most 4 bytes and a block at most 16. -/
theorem Format.unit_cases (f : Format) : (∃ bpp ≤ 4, f.unit = .pixel bpp) ∨ ∃ bb ≤ 16, f.unit = .block bb := by
  cases f with
  | dxt1 | dxt5 => exact .inr ⟨_, by decide, rfl⟩
  | _ => exact .inl ⟨_, by decide, rfl⟩

/-- Rounded either way, blocks are at most the blocks that cover the pixels. -/
theorem Geometry.units_le_of_block {bb : Nat} (hunit : g.format.unit = .block bb) (n : Nat) :
    g.units n ≤ (n + 3) / 4 := by
  cases hfloor : g.floor with
  | false => exact (Geometry.units_of_ceil hunit hfloor n).le
  | true =>
    rw [Geometry.units_of_floor hunit hfloor]
    omega

/-- A slice has at most 2^16 times 2^16 pixels of 4 bytes, or 2^14 times 2^14 blocks of 16. -/
theorem Geometry.FitsLatch.sliceBytes_le (h : g.FitsLatch) (level : Nat) : g.sliceBytes level ≤ 2 ^ 34 := by
  have hwidth : mipDim g.width level < 2 ^ 16 := mipDim_lt (by decide) h.width level
  have hheight : mipDim g.height level < 2 ^ 16 := mipDim_lt (by decide) h.height level
  rw [Geometry.sliceBytes_eq]
  rcases g.format.unit_cases with ⟨bpp, hbpp, hunit⟩ | ⟨bb, hbb, hunit⟩ <;> rw [hunit]
  · calc g.units (mipDim g.width level) * g.units (mipDim g.height level) * bpp
        ≤ 2 ^ 16 * 2 ^ 16 * 4 := by
          rw [Geometry.units_of_pixel hunit, Geometry.units_of_pixel hunit]
          exact Nat.mul_le_mul (Nat.mul_le_mul hwidth.le hheight.le) hbpp
      _ = 2 ^ 34 := by norm_num
  · have hblocks {n : Nat} (hn : n < 2 ^ 16) : g.units n ≤ 2 ^ 14 := by
      have hle := Geometry.units_le_of_block hunit n
      omega
    calc g.units (mipDim g.width level) * g.units (mipDim g.height level) * bb
        ≤ 2 ^ 14 * 2 ^ 14 * 16 := Nat.mul_le_mul (Nat.mul_le_mul (hblocks hwidth) (hblocks hheight)) hbb
      _ ≤ 2 ^ 34 := by norm_num

/-- R208: a mip size lies below 2^50. -/
theorem Geometry.FitsLatch.mipSize_lt (h : g.FitsLatch) {d : Nat} (hd : d < 2 ^ 16) (level : Nat) :
    g.mipSize level d < 2 ^ 50 :=
  calc g.mipSize level d
      ≤ 2 ^ 34 * mipDim d level := Nat.mul_le_mul_right _ (h.sliceBytes_le level)
    _ < 2 ^ 34 * 2 ^ 16 := Nat.mul_lt_mul_of_pos_left (mipDim_lt (by decide) hd level) (by decide)
    _ = 2 ^ 50 := by norm_num

/-- Fewer than 2^8 levels of fewer than 2^16 frames. -/
theorem Geometry.FitsLatch.mipSum_mul_frames_le (h : g.FitsLatch) (lo : Nat) :
    g.mipSum lo g.mips * g.frames ≤ 2 ^ 74 := by
  have hsum : g.mipSum lo g.mips ≤ (Finset.Ico lo g.mips).card • 2 ^ 50 := by
    rw [Geometry.mipSum_eq_sum]
    exact Finset.sum_le_card_nsmul _ _ _ fun l _ => (h.mipSize_lt h.depth l).le
  have hcard : (Finset.Ico lo g.mips).card ≤ 2 ^ 8 := by
    rw [Nat.card_Ico]
    exact (Nat.sub_le ..).trans h.mips.le
  calc g.mipSum lo g.mips * g.frames
      ≤ 2 ^ 8 * 2 ^ 50 * 2 ^ 16 := Nat.mul_le_mul (hsum.trans (Nat.mul_le_mul_right _ hcard)) h.frames.le
    _ = 2 ^ 74 := by norm_num

/-- R204: the total is below the bound of R209. -/
theorem Geometry.FitsLatch.total_lt (h : g.FitsLatch) : g.total < 2 ^ 84 :=
  Nat.lt_of_le_of_lt (h.mipSum_mul_frames_le 0) (by norm_num)

/-- R209: with 32-bit operands every offset lies below 2^84; the frame and the face make the largest part. -/
theorem Geometry.FitsLatch.offset_lt (h : g.FitsLatch) {frame face slice : Nat} (hframe : frame < 2 ^ 32)
    (hface : face < 2 ^ 32) (hslice : slice < 2 ^ 32) (m : Nat) : g.offset frame face slice m < 2 ^ 84 := by
  have hsum := h.mipSum_mul_frames_le (m + 1)
  have hvolumes : g.mipSize m g.depth * (frame * 1 + face) ≤ 2 ^ 50 * 2 ^ 33 :=
    Nat.mul_le_mul (h.mipSize_lt h.depth m).le (by omega)
  have hslices : g.mipSize m 1 * slice ≤ 2 ^ 50 * 2 ^ 32 :=
    Nat.mul_le_mul (h.mipSize_lt (by decide) m).le hslice.le
  rw [Geometry.offset, Nat.mul_one]
  omega

end Bounds

/-! ### The outcomes -/

section Commands
variable {s : State} {f : Format}

theorem exec_vacMipsize (level : Nat) (dsel : Bool) (s : State) :
    exec (.vacMipsize level dsel) s = execVacMipsize level dsel s := rfl

theorem exec_vacOffset (s : State) : exec .vacOffset s = execVacOffset s := rfl

theorem exec_vacMipsize_of_unsupported (hb : s.busy = false) (htag : Format.ofTag s.hdr.format = none) (level : Nat)
    (dsel : Bool) : exec (.vacMipsize level dsel) s = .next (raiseCmdError .unsupportedFormat s) := by
  simp only [exec_vacMipsize, execVacMipsize, unlessBusy_free hb, htag]

theorem exec_vacMipsize_of_supported (hb : s.busy = false) (htag : Format.ofTag s.hdr.format = some f) (level : Nat)
    (dsel : Bool) : exec (.vacMipsize level dsel) s =
      .next (storeResult ((s.geometry f).mipSize level (if dsel then 1 else s.hdr.depth.toNat)) s) := by
  simp only [exec_vacMipsize, execVacMipsize, unlessBusy_free hb, htag]

/-- R209: the level is checked before the format. -/
theorem exec_vacOffset_of_lt (hb : s.busy = false) (hm : vacLevel s < -1) :
    exec .vacOffset s = .next (raiseCmdError .badOperand s) :=
  (unlessBusy_free hb _).trans (if_pos hm)

theorem exec_vacOffset_of_unsupported (hb : s.busy = false) (hm : -1 ≤ vacLevel s)
    (htag : Format.ofTag s.hdr.format = none) : exec .vacOffset s = .next (raiseCmdError .unsupportedFormat s) := by
  simp only [exec_vacOffset, execVacOffset, unlessBusy_free hb, if_neg (Int.not_lt.mpr hm), htag]

/-- R204: level -1 asks for the total. -/
theorem exec_vacOffset_of_total (hb : s.busy = false) (hm : vacLevel s = -1)
    (htag : Format.ofTag s.hdr.format = some f) :
    exec .vacOffset s = .next (storeResult (s.geometry f).total s) := by
  simp only [exec_vacOffset, execVacOffset, unlessBusy_free hb, hm, htag, Int.lt_irrefl, if_false, if_true]

theorem exec_vacOffset_of_level (hb : s.busy = false) (hm : 0 ≤ vacLevel s)
    (htag : Format.ofTag s.hdr.format = some f) :
    exec .vacOffset s = .next (storeResult
      ((s.geometry f).offset s.vac.frame.toNat s.vac.face.toNat s.vac.slice.toNat (vacLevel s).toNat) s) := by
  have hlow : ¬ vacLevel s < -1 := by omega
  have htotal : ¬ vacLevel s = -1 := by omega
  simp only [exec_vacOffset, execVacOffset, unlessBusy_free hb, if_neg hlow, if_neg htotal, htag]

/-- R210: a result below 2^64 is stored whole. -/
theorem storeResult_of_lt {r : Nat} (hr : r < 2 ^ 64) (s : State) :
    storeResult r s = { s with vac.res := BitVec.ofNat 64 r, vovf := false } := by
  rw [storeResult, decide_eq_false (Nat.not_le_of_lt hr)]

end Commands

/-- R39, the effective depth as a number. -/
theorem Hdr.depth_toNat (h : Hdr) :
    h.depth.toNat = if h.verMajor.toNat * 256 + h.verMinor.toNat < 1794 then 1 else h.depthRaw.toNat := by
  rw [Hdr.depth, Hdr.version]
  exact apply_ite BitVec.toNat _ _ _

/-- Settles O25: the size is the model's `mipSize`, whose units are those of the format. -/
theorem vacMipsizeComputesTheMipSize : Obligations.VacMipsizeComputesTheMipSize := by
  intro s level dsel depth hdepth
  rw [← Hdr.depth_toNat] at hdepth
  refine ⟨fun hb => unlessBusy_busy hb _, fun hb htag => exec_vacMipsize_of_unsupported hb htag level dsel, ?_⟩
  intro f hb htag
  have hlatch := s.geometry_fitsLatch f
  have hlt : (s.geometry f).mipSize level depth < 2 ^ 50 := by
    refine hlatch.mipSize_lt ?_ level
    rw [hdepth]
    split
    · decide
    · exact hlatch.depth
  refine ⟨_, hlt, fun bpp hunit => Geometry.mipSize_of_pixel hunit level depth,
    fun bb hunit hceil => Geometry.mipSize_of_ceil hunit hceil level depth,
    fun bb hunit hfloor => Geometry.mipSize_of_floor hunit hfloor level depth, ?_⟩
  rw [exec_vacMipsize_of_supported hb htag, ← hdepth, storeResult_of_lt (hlt.trans (by norm_num))]

/-- Settles O26: level -1 is the total, every level from 0 on an offset. -/
theorem vacOffsetComputesTheOffset : Obligations.VacOffsetComputesTheOffset := by
  rintro s m rfl
  refine ⟨fun hb => unlessBusy_busy hb _, fun hb hm => exec_vacOffset_of_lt hb hm,
    fun hb hm htag => exec_vacOffset_of_unsupported hb hm htag, ?_⟩
  intro f hb hm htag
  have hlatch := s.geometry_fitsLatch f
  rcases hm.eq_or_lt with htotal | hlevel
  · refine ⟨(s.geometry f).total, hlatch.total_lt, fun _ => Geometry.total_eq_sum _, fun hnonneg => ?_,
      exec_vacOffset_of_total hb htotal.symm htag⟩
    omega
  · have hnonneg : 0 ≤ s.vac.mip.toInt := by omega
    refine ⟨_, hlatch.offset_lt s.vac.frame.isLt s.vac.face.isLt s.vac.slice.isLt s.vac.mip.toInt.toNat,
      fun htotal => ?_, fun _ => rfl, exec_vacOffset_of_level hb hnonneg htag⟩
    omega

end Sys2Proof.Machine
end

section
/-! PROOFS. Writing actions one after another: the memory they leave, and what it reads where their addresses do not
meet (spec/20_memory.md R74, R79). -/

namespace Sys2Proof.Machine

/-- The memory after each action in turn has written its bytes from its address on. -/
def Memory.writeAll {α : Type} (addr : α → Nat) (bytes : α → List Byte) (as : List α) (m : Memory) : Memory :=
  as.foldl (fun m a => m.writeList (addr a) (bytes a)) m

section WriteAll
variable {α : Type} {addr : α → Nat} {bytes : α → List Byte} {as : List α} {m : Memory}

theorem Memory.writeAll_cons (a : α) :
    Memory.writeAll addr bytes (a :: as) m = Memory.writeAll addr bytes as (m.writeList (addr a) (bytes a)) := rfl

/-- A painting of actions that all write their bytes leaves the memory with all of them written. -/
theorem paint_eq_writeAll {f : α → Memory → Painted}
    (hf : ∀ a ∈ as, ∀ m, f a m = .done (m.writeList (addr a) (bytes a))) :
    paint f as m = .done (Memory.writeAll addr bytes as m) := by
  induction as generalizing m with
  | nil => rfl
  | cons a rest ih =>
    rw [paint, hf a (List.mem_cons_self ..) m]
    exact ih fun b hb => hf b (List.mem_cons_of_mem _ hb)

/-- An address that no action writes reads as before. -/
theorem Memory.read_writeAll_out {x : Nat} (hout : ∀ a ∈ as, x < addr a ∨ addr a + (bytes a).length ≤ x) :
    (Memory.writeAll addr bytes as m).read x = m.read x := by
  induction as generalizing m with
  | nil => rfl
  | cons a rest ih =>
    rw [Memory.writeAll_cons, ih fun b hb => hout b (List.mem_cons_of_mem _ hb),
      Memory.read_writeList_out m _ (hout a (List.mem_cons_self ..))]

/-- An address that one action alone writes reads as that action's byte. -/
theorem Memory.read_writeAll_in {a : α} {k : Nat} (ha : a ∈ as) (hk : k < (bytes a).length)
    (hapart : ∀ b ∈ as, b ≠ a → addr a + k < addr b ∨ addr b + (bytes b).length ≤ addr a + k) :
    (Memory.writeAll addr bytes as m).read (addr a + k) = (bytes a)[k]? := by
  induction as generalizing m with
  | nil => cases ha
  | cons b rest ih =>
    have hrest := fun c hc => hapart c (List.mem_cons_of_mem b hc)
    rw [Memory.writeAll_cons]
    by_cases hmem : a ∈ rest
    · exact ih hmem hrest
    · obtain rfl : a = b := (List.mem_cons.mp ha).resolve_right hmem
      rw [Memory.read_writeAll_out fun c hc => hrest c hc fun hca => hmem (hca ▸ hc),
        Memory.read_writeList_in m _ hk]

end WriteAll

end Sys2Proof.Machine
end

section
/-! PROOFS. The DECODE step of a per-pixel frame (spec/43_pixel_formats.md R232, spec/45_frame_dispatcher.md R316): the
pixels' channels lie apart in an accepted buffer, so each is read back where it was written. -/

namespace Sys2Proof.Machine

/-- R230: a destination pixel has at most the four channels a decoded pixel has. -/
theorem State.bufferAccepted.nch_le {s : State} (h : s.bufferAccepted) : s.fb.nch.toNat ≤ 4 := by
  obtain ⟨-, -, -, hnch⟩ := h
  rw [hnch, Hdr.nch]
  split <;> omega

/-- The address of a channel is that of the pixel's first channel and the channel's number. -/
theorem State.pixelAddr_eq_add (s : State) (x y c : Nat) : s.pixelAddr x y c = s.pixelAddr x y 0 + c := rfl

section Frame
variable {s : State} (h : s.bufferAccepted) {x y x' y' : Nat}
include h

/-- R314: the stride leaves room for a row, so a pixel's channels end before any pixel that follows it. -/
theorem State.bufferAccepted.pixelAddr_add_nch_le (hx : x < s.hdr.width.toNat) (hy' : y' < s.hdr.height.toNat)
    (hbefore : y < y' ∨ y = y' ∧ x < x') : s.pixelAddr x y 0 + s.fb.nch.toNat ≤ s.pixelAddr x' y' 0 := by
  obtain ⟨hstride, -, -, hnch⟩ := h
  rw [leastStride_of_pixels (by omega) (by omega), rowBytes, ← hnch] at hstride
  unfold pixelAddr
  rcases hbefore with hrow | ⟨rfl, hcol⟩
  · have hend : (x + 1) * s.fb.nch.toNat ≤ s.hdr.width.toNat * s.fb.nch.toNat := Nat.mul_le_mul_right _ hx
    have hnext : (y + 1) * s.fb.stride.toNat ≤ y' * s.fb.stride.toNat := Nat.mul_le_mul_right _ hrow
    rw [Nat.succ_mul] at hend hnext
    omega
  · have hnext : (x + 1) * s.fb.nch.toNat ≤ x' * s.fb.nch.toNat := Nat.mul_le_mul_right _ hcol
    rw [Nat.succ_mul] at hnext
    omega

/-- The channels of one pixel of the frame lie outside those of any other. -/
theorem State.bufferAccepted.pixelAddr_apart (hx : x < s.hdr.width.toNat) (hy : y < s.hdr.height.toNat)
    (hx' : x' < s.hdr.width.toNat) (hy' : y' < s.hdr.height.toNat) (hne : (x', y') ≠ (x, y)) {c : Nat}
    (hc : c < s.fb.nch.toNat) :
    s.pixelAddr x y 0 + c < s.pixelAddr x' y' 0 ∨ s.pixelAddr x' y' 0 + s.fb.nch.toNat ≤ s.pixelAddr x y 0 + c := by
  have horder : (y < y' ∨ y = y' ∧ x < x') ∨ (y' < y ∨ y' = y ∧ x' < x) := by
    rw [ne_eq, Prod.mk.injEq] at hne
    omega
  rcases horder with hbefore | hafter
  · have := h.pixelAddr_add_nch_le hx hy' hbefore
    omega
  · have := h.pixelAddr_add_nch_le hx' hy hafter
    omega

end Frame

/-- The bytes that pixel p of a per-pixel frame is written as: the first FB_NCH channels of its source unit (R232). -/
def State.pixelBytes (s : State) (pix : List Byte → Pixel) (bpp off : Nat) (p : Nat × Nat) : List Byte :=
  (pix ((accRead s (off + (p.2 * s.hdr.width.toNat + p.1) * bpp) bpp).getD [])).channels.take s.fb.nch.toNat

section Pixels
variable {s : State} {pix : List Byte → Pixel} {bpp off : Nat}

theorem State.bufferAccepted.length_pixelBytes (h : s.bufferAccepted) (p : Nat × Nat) :
    (s.pixelBytes pix bpp off p).length = s.fb.nch.toNat :=
  List.length_take_of_le h.nch_le

/-- A pixel is written as the channels of what its source bytes decode to. -/
theorem State.pixelBytes_eq {p : Nat × Nat} {bs : List Byte}
    (hread : accRead s (off + (p.2 * s.hdr.width.toNat + p.1) * bpp) bpp = some bs) :
    s.pixelBytes pix bpp off p = (pix bs).channels.take s.fb.nch.toNat := by
  rw [pixelBytes, hread, Option.getD_some]

/-- R232: a pixel whose source bytes can be read is written whole. -/
theorem State.bufferAccepted.pixelStep_eq (h : s.bufferAccepted) {p : Nat × Nat} {bs : List Byte}
    (hp : p ∈ raster s.hdr.width.toNat s.hdr.height.toNat)
    (hread : accRead s (off + (p.2 * s.hdr.width.toNat + p.1) * bpp) bpp = some bs) (m : Memory) :
    pixelStep pix bpp off s p m = .done (m.writeList (s.pixelAddr p.1 p.2 0) (s.pixelBytes pix bpp off p)) := by
  obtain ⟨hx, hy⟩ := mem_raster.mp hp
  have hroom := h.pixel_le hx hy
  have hlen := h.length_pixelBytes (pix := pix) (bpp := bpp) (off := off) p
  obtain ⟨-, -, hspace, -⟩ := h
  simp only [pixelStep, hread, ← State.pixelBytes_eq hread]
  exact writeChannels_done _ _ m (by rw [hlen]; omega)

/-- R232: where every pixel's source bytes can be read, each channel is found in its place and no other byte of memory
has changed. -/
theorem State.bufferAccepted.decodePixels_done (h : s.bufferAccepted)
    (hread : ∀ x y, x < s.hdr.width.toNat → y < s.hdr.height.toNat →
      ∃ bs, accRead s (off + (y * s.hdr.width.toNat + x) * bpp) bpp = some bs) :
    ∃ m, decodePixels pix bpp off s = .done m ∧
      (∀ x y c, x < s.hdr.width.toNat → y < s.hdr.height.toNat → c < s.fb.nch.toNat →
        m.read (s.pixelAddr x y c) = (s.pixelBytes pix bpp off (x, y))[c]?) ∧
      ∀ a, (∀ x y c, x < s.hdr.width.toNat → y < s.hdr.height.toNat → c < s.fb.nch.toNat → a ≠ s.pixelAddr x y c) →
        m.read a = s.dest.read a := by
  refine ⟨_, paint_eq_writeAll (addr := fun p => s.pixelAddr p.1 p.2 0) (bytes := s.pixelBytes pix bpp off)
    fun p hp m => ?_, fun x y c hx hy hc => ?_, fun a ha => ?_⟩
  · obtain ⟨hx, hy⟩ := mem_raster.mp hp
    obtain ⟨bs, hbs⟩ := hread p.1 p.2 hx hy
    exact h.pixelStep_eq hp hbs m
  · refine Memory.read_writeAll_in (a := (x, y)) (mem_raster.mpr ⟨hx, hy⟩) (by rwa [h.length_pixelBytes])
      fun q hq hne => ?_
    obtain ⟨hx', hy'⟩ := mem_raster.mp hq
    rw [h.length_pixelBytes]
    exact h.pixelAddr_apart hx hy hx' hy' hne hc
  · refine Memory.read_writeAll_out fun p hp => ?_
    obtain ⟨hx, hy⟩ := mem_raster.mp hp
    rw [h.length_pixelBytes]
    by_contra hin
    refine ha p.1 p.2 (a - s.pixelAddr p.1 p.2 0) hx hy (by omega) ?_
    rw [s.pixelAddr_eq_add]
    omega

end Pixels

/-- R121: a pixel has at least one byte. -/
theorem Format.pos_of_unit_pixel {f : Format} {bpp : Nat} (hunit : f.unit = .pixel bpp) : 0 < bpp := by
  cases f <;> cases hunit <;> decide

/-- R244: a per-pixel format is decoded by its own channel function, in units of its own size. -/
theorem decodeFrame_of_pixel {f : Format} {bpp : Nat} {pix : List Byte → Pixel} (hunit : f.unit = .pixel bpp)
    (hpix : f.pixelFunction = some pix) (off : Nat) (s : State) :
    decodeFrame f off s = decodePixels pix bpp off s := by
  cases f with
  | dxt1 | dxt5 => cases hunit
  | _ => cases hunit; cases hpix; rfl

/-- R313, R316: the request that follows a decoded frame, field by field. -/
theorem requestDecoded_eq (s : State) :
    requestDecoded s =
      { s with
        req := s.requestOf s.fb.base
        phase := if s.frameIdx = 0#32 then .notifyWait else .appendWait } := by
  by_cases h0 : s.frameIdx = 0#32
  · rw [if_pos h0]
    exact if_pos h0
  · rw [if_neg h0]
    exact if_neg h0

/-- R312, R316: in DECODE the source bytes of every pixel of a per-pixel frame can be read. -/
theorem State.Inv.accRead_pixel {s : State} (h : s.Inv) (hp : s.phase = .decode) {f : Format} {bpp : Nat}
    (htag : Format.ofTag s.hdr.format = some f) (hunit : f.unit = .pixel bpp) {x y : Nat}
    (hx : x < s.hdr.width.toNat) (hy : y < s.hdr.height.toNat) :
    ∃ bs, accRead s (s.source f + (y * s.hdr.width.toNat + x) * bpp) bpp = some bs := by
  obtain ⟨-, hrange, -⟩ := h.pending (by rw [hp]; rfl)
  have hframe := hrange f htag
  rw [frameInRange, Geometry.frameReadBytes, show (s.geometry f).format.unit = .pixel bpp from hunit] at hframe
  exact h.accRead_unit hframe (Format.pos_of_unit_pixel hunit) hx hy

/-- Settles O40: the frame's painting completes with every channel in its place, and the request is all that the step
adds to it. -/
theorem pixelFrameIsDecodedInPlace : Obligations.PixelFrameIsDecodedInPlace := by
  intro s f bpp pix h hp htag hunit hpix
  have hread := fun x y => h.accRead_pixel hp htag hunit (x := x) (y := y)
  have hbuffer : s.bufferAccepted := h.accepted (by rw [hp]; rfl)
  obtain ⟨m, hdone, hin, hout⟩ := hbuffer.decodePixels_done (pix := pix) hread
  rw [← decodeFrame_of_pixel hunit hpix] at hdone
  have hstep := (engineStep_of_decode hp).trans (decodeStep_of_done htag hdone)
  rw [requestDecoded_eq] at hstep
  refine ⟨_, hstep, fun x y c hx hy hc => ?_, hout, rfl⟩
  obtain ⟨bs, hbs⟩ := hread x y hx hy
  refine ⟨bs, hbs, ?_⟩
  rw [hin x y c hx hy hc, State.pixelBytes_eq hbs, List.getElem?_take_of_lt hc]

end Sys2Proof.Machine
end

section
/-! PROOFS. PIX_DECODE and BLK_DECODE on a tag that is not theirs (spec/43_pixel_formats.md R243,
spec/44_block_decompressor.md R281): a word of either opcode is read by its tag alone, and a foreign tag is a refusal that
BUSY comes before. -/

namespace Sys2Proof

/-- The tag field of a word is the tag that was put there (R101). -/
theorem argField_tagged (tag opc : BitVec 8) : argField (0#16 ++ tag ++ opc) = tag :=
  (BitVec.extractLsb'_append_eq_of_le (by omega)).trans BitVec.extractLsb'_append_eq_right

/-- A tag above the OPC of an opcode that takes one makes a word of that opcode. -/
theorem Opcode.hasWord_tagged {op : Opcode} (hop : op.operandBits = 8) (tag : BitVec 8) :
    op.HasWord (0#16 ++ tag ++ op.opc) := by
  refine ⟨BitVec.extractLsb'_append_eq_right, ?_⟩
  rw [hop]
  exact (BitVec.extractLsb'_append_eq_of_le (by omega)).trans BitVec.extractLsb'_append_eq_left

theorem opcodeOf_pixWord (tag : BitVec 8) : opcodeOf (pixWord tag) = some .pixDecode :=
  opcodeOf_eq_some_iff.mpr (Opcode.hasWord_tagged rfl tag)

theorem opcodeOf_blkWord (tag : BitVec 8) : opcodeOf (blkWord tag) = some .blkDecode :=
  opcodeOf_eq_some_iff.mpr (Opcode.hasWord_tagged rfl tag)

theorem decodeCommand_pixWord (tag : BitVec 8) : decodeCommand (pixWord tag) = decodePixTag tag := by
  simp only [decodeCommand, opcodeOf_pixWord]
  rw [pixWord, argField_tagged]

theorem decodeCommand_blkWord (tag : BitVec 8) : decodeCommand (blkWord tag) = decodeBlkTag tag := by
  simp only [decodeCommand, opcodeOf_blkWord]
  rw [blkWord, argField_tagged]

/-- R243: a tag that PIX_DECODE does not run is a block tag or an unsupported one. -/
theorem decodePixTag_foreign {tag : BitVec 8} (h : tag.toNat ∉ [0, 1, 2, 3, 4, 5, 6, 8, 11, 12]) :
    decodePixTag tag = .refuse (if tag.toNat = 13 ∨ tag.toNat = 15 then .pixBlockTag else .pixUnsupportedTag) := by
  unfold decodePixTag
  split <;> simp_all

/-- R281: a tag that BLK_DECODE does not run is a per-pixel tag or an unsupported one. -/
theorem decodeBlkTag_foreign {tag : BitVec 8} (h : tag.toNat ∉ [13, 15]) :
    decodeBlkTag tag = .refuse
      (if tag.toNat ∈ [0, 1, 2, 3, 4, 5, 6, 8, 11, 12] then .blkPixelTag else .blkUnsupportedTag) := by
  unfold decodeBlkTag
  split <;> simp_all

end Sys2Proof

namespace Sys2Proof.Machine

/-- R358: a command error that gives way to BUSY leaves the one code or the other, and nothing else. -/
theorem unlessBusy_raiseCmdError (e : CmdError) (s : State) :
    unlessBusy s (.next (raiseCmdError e s)) = .next (s.refusedWith (if s.busy then 3#4 else e.code)) := by
  unfold unlessBusy
  split <;> rfl

/-- R243: BUSY, then BAD_OPERAND for a block tag, then UNSUPPORTED_FORMAT. -/
theorem refuseWrite_pixTag (block : Prop) [Decidable block] (s : State) :
    refuseWrite (if block then .pixBlockTag else .pixUnsupportedTag) s =
      .next (s.refusedWith (if s.busy then 3#4 else if block then 4#4 else 5#4)) := by
  split
  · exact unlessBusy_raiseCmdError .badOperand s
  · exact unlessBusy_raiseCmdError .unsupportedFormat s

/-- R281: BUSY, then BAD_OPERAND for a per-pixel tag, then UNSUPPORTED_FORMAT. -/
theorem refuseWrite_blkTag (pixel : Prop) [Decidable pixel] (s : State) :
    refuseWrite (if pixel then .blkPixelTag else .blkUnsupportedTag) s =
      .next (s.refusedWith (if s.busy then 3#4 else if pixel then 4#4 else 5#4)) := by
  split
  · exact unlessBusy_raiseCmdError .badOperand s
  · exact unlessBusy_raiseCmdError .unsupportedFormat s

/-- Settles O15: the word is read by its tag, a foreign tag is refused, and the refusal reports its errors in order. -/
theorem foreignTagsAreRefused : Obligations.ForeignTagsAreRefused := by
  refine fun tag s => ⟨fun hpix => ?_, fun hblk => ?_⟩
  · have hdecode : decode s.phase.reqType (.to .cmd (pixWord tag)) = .refuse _ :=
      (decode_to_cmd ..).trans ((decodeCommand_pixWord tag).trans (decodePixTag_foreign hpix))
    exact (hostWrite_of_decode_refuse hdecode).trans (refuseWrite_pixTag _ s)
  · have hdecode : decode s.phase.reqType (.to .cmd (blkWord tag)) = .refuse _ :=
      (decode_to_cmd ..).trans ((decodeCommand_blkWord tag).trans (decodeBlkTag_foreign hblk))
    exact (hostWrite_of_decode_refuse hdecode).trans (refuseWrite_blkTag _ s)

end Sys2Proof.Machine
end

section
/-! PROOFS. The channel functions and PIX_DECODE with each of them (spec/43_pixel_formats.md R231, R233 to R243). -/

namespace Sys2Proof.Machine

/-! ### Bit replication -/

/-- R231: replicating the high bits of an `n`-bit field below its `8 - n` places of shift combines no bits, so it is a
sum. -/
theorem toNat_replicate {n shift drop : Nat} (hfits : n + shift = 8) (hcovers : n ≤ shift + drop) (v : BitVec n) :
    ((v.setWidth 8 <<< shift) ||| (v.setWidth 8 >>> drop)).toNat = v.toNat * 2 ^ shift + v.toNat / 2 ^ drop := by
  have hhigh : v.toNat * 2 ^ shift < 2 ^ 8 := by
    calc v.toNat * 2 ^ shift < 2 ^ n * 2 ^ shift := Nat.mul_lt_mul_of_pos_right v.isLt (Nat.two_pow_pos shift)
      _ = 2 ^ 8 := by rw [← Nat.pow_add, hfits]
  have hlow : v.toNat >>> drop < 2 ^ shift := by
    rw [Nat.shiftRight_eq_div_pow, Nat.div_lt_iff_lt_mul (Nat.two_pow_pos drop), ← Nat.pow_add]
    exact v.isLt.trans_le (Nat.pow_le_pow_right (by omega) hcovers)
  rw [BitVec.toNat_or, BitVec.toNat_shiftLeft, BitVec.toNat_ushiftRight, BitVec.toNat_setWidth_of_le (by omega),
    Nat.mod_eq_of_lt (by rwa [Nat.shiftLeft_eq]), ← Nat.shiftLeft_add_eq_or_of_lt hlow, Nat.shiftLeft_eq,
    Nat.shiftRight_eq_div_pow]

theorem expand5_toNat (v : BitVec 5) : (expand5 v).toNat = v.toNat * 8 + v.toNat / 4 :=
  toNat_replicate (shift := 3) (drop := 2) rfl (by omega) v

theorem expand6_toNat (v : BitVec 6) : (expand6 v).toNat = v.toNat * 4 + v.toNat / 16 :=
  toNat_replicate (shift := 2) (drop := 4) rfl (by omega) v

/-! ### RGB565 -/

section Rgb565
variable (w : BitVec 16)

/-- R5 is the top five bits of the word (spec/30_encoding.md R124). -/
theorem rgb565_r_toNat : (rgb565 w).r.toNat = w.toNat / 2048 * 8 + w.toNat / 2048 / 4 := by
  have hfield : (w.extractLsb' 11 5).toNat = w.toNat / 2048 := by
    rw [BitVec.extractLsb'_toNat, Nat.shiftRight_eq_div_pow]
    exact Nat.mod_eq_of_lt (by omega)
  rw [← hfield]
  exact expand5_toNat _

theorem rgb565_g_toNat : (rgb565 w).g.toNat = w.toNat / 32 % 64 * 4 + w.toNat / 32 % 64 / 16 := by
  have hfield : (w.extractLsb' 5 6).toNat = w.toNat / 32 % 64 := by
    rw [BitVec.extractLsb'_toNat, Nat.shiftRight_eq_div_pow]
  rw [← hfield]
  exact expand6_toNat _

theorem rgb565_b_toNat : (rgb565 w).b.toNat = w.toNat % 32 * 8 + w.toNat % 32 / 4 := by
  have hfield : (w.extractLsb' 0 5).toNat = w.toNat % 32 := by
    rw [BitVec.extractLsb'_toNat, Nat.shiftRight_zero]
  rw [← hfield]
  exact expand5_toNat _

end Rgb565

/-- R10: the word of two bytes is little-endian. -/
theorem le16_cons_cons_toNat (b0 b1 : Byte) (rest : List Byte) :
    (le16 (b0 :: b1 :: rest) 0).toNat = b0.toNat + 256 * b1.toNat :=
  toNat_append_eq_add b1 b0

/-! ### PIX_DECODE -/

/-- R243: while not BUSY, PIX_DECODE writes PIX_OUT and nothing else. -/
theorem pixDecode_of_free {s : State} (hb : s.busy = false) (f : List Byte → Pixel) :
    pixDecode f s =
      .next { s with pixOut := (f [s.pixByte 0, s.pixByte 1, s.pixByte 2, s.pixByte 3]).pack } :=
  unlessBusy_free hb _

/-- R46: PIX_IN is its four bytes. -/
theorem State.append_pixBytes (s : State) :
    s.pixByte 3 ++ s.pixByte 2 ++ s.pixByte 1 ++ s.pixByte 0 = s.pixIn := by
  have hhigh : s.pixByte 3 ++ s.pixByte 2 = s.pixIn.extractLsb' 16 16 :=
    BitVec.extractLsb'_append_extractLsb'_eq_extractLsb' rfl
  rw [hhigh]
  exact append_fields (h := 16) (m := 8) (l := 8) s.pixIn

/-- Settles O30: the fields in numbers by bit replication, and PIX_DECODE by its one equation. -/
theorem rgb565ExpandsItsFields : Obligations.Rgb565ExpandsItsFields := by
  refine ⟨expand5_toNat, expand6_toNat, ?_, fun s hb => pixDecode_of_free hb pixRgb565⟩
  rintro b0 b1 rest w rfl
  rw [← le16_cons_cons_toNat b0 b1 rest]
  exact ⟨rgb565_r_toNat _, rgb565_g_toNat _, rgb565_b_toNat _, rfl⟩

/-- Settles O29: a channel function picks its bytes, and PIX_DECODE packs them; RGBA8888 packs PIX_IN again. -/
theorem copyingFormatsMoveTheirBytes : Obligations.CopyingFormatsMoveTheirBytes := by
  refine ⟨fun _ _ _ _ _ => ⟨rfl, rfl, rfl, rfl, rfl, rfl, rfl, rfl, rfl⟩, fun s hb => ?_⟩
  refine ⟨?_, pixDecode_of_free hb pixAbgr8888, pixDecode_of_free hb pixRgb888, pixDecode_of_free hb pixBgr888,
    pixDecode_of_free hb pixI8, pixDecode_of_free hb pixIa88, pixDecode_of_free hb pixA8,
    pixDecode_of_free hb pixArgb8888, pixDecode_of_free hb pixBgra8888⟩
  have hpack : (pixRgba8888 [s.pixByte 0, s.pixByte 1, s.pixByte 2, s.pixByte 3]).pack = s.pixIn := s.append_pixBytes
  have hrun := pixDecode_of_free hb pixRgba8888
  rw [hpack] at hrun
  exact hrun

end Sys2Proof.Machine
end

section
/-! PROOFS. The colour and alpha palettes in numbers, and what interpolation keeps
(spec/44_block_decompressor.md R270 to R275, R282, R283). -/

namespace Sys2Proof.Machine

/-! ### Interpolation -/

section Blend
variable {u v bias div : Nat} (x y : Byte)

/-- R282: weights that sum to the divisor keep the mean within a byte, so no bit of it is cut off. -/
theorem blend_toNat (hweights : u + v = div) (hbias : bias < div) :
    (blend u v bias div x y).toNat = (u * x.toNat + v * y.toNat + bias) / div := by
  have hx : u * x.toNat ≤ u * 255 := Nat.mul_le_mul_left u (by omega)
  have hy : v * y.toNat ≤ v * 255 := Nat.mul_le_mul_left v (by omega)
  have hbyte : (u * x.toNat + v * y.toNat + bias) / div < 256 := Nat.div_lt_of_lt_mul (by omega)
  rw [blend, BitVec.toNat_ofNat, Nat.mod_eq_of_lt hbyte]

/-- A weighted sum lies between the multiples of its endpoints. -/
theorem weightedSum_between (hweights : u + v = div) (m n : Nat) :
    div * min m n ≤ u * m + v * n ∧ u * m + v * n ≤ div * max m n := by
  subst hweights
  rw [Nat.add_mul, Nat.add_mul]
  exact ⟨Nat.add_le_add (Nat.mul_le_mul_left u (Nat.min_le_left ..)) (Nat.mul_le_mul_left v (Nat.min_le_right ..)),
    Nat.add_le_add (Nat.mul_le_mul_left u (Nat.le_max_left ..)) (Nat.mul_le_mul_left v (Nat.le_max_right ..))⟩

/-- R282: with half the divisor as bias the mean is rounded half up, and stays between its endpoints. -/
theorem blend_rounds (hweights : u + v = div) (hbias : 2 * bias = div) (hpos : 0 < div) :
    min x.toNat y.toNat ≤ (blend u v bias div x y).toNat ∧ (blend u v bias div x y).toNat ≤ max x.toNat y.toNat ∧
      2 * div * (blend u v bias div x y).toNat ≤ 2 * (u * x.toNat + v * y.toNat) + div ∧
      2 * (u * x.toNat + v * y.toNat) + div < 2 * div * ((blend u v bias div x y).toNat + 1) := by
  obtain ⟨hmin, hmax⟩ := weightedSum_between hweights x.toNat y.toNat
  rw [blend_toNat x y hweights (by omega)]
  generalize u * x.toNat + v * y.toNat = n at hmin hmax
  have hlow : div * ((n + bias) / div) ≤ n + bias := Nat.mul_div_le ..
  have hhigh : n + bias < div * ((n + bias) / div + 1) := Nat.lt_mul_div_succ _ hpos
  refine ⟨(Nat.le_div_iff_mul_le hpos).mpr (by rw [Nat.mul_comm]; omega), ?_, ?_, ?_⟩
  · exact Nat.le_of_lt_succ (Nat.div_lt_of_lt_mul (by rw [Nat.mul_succ]; omega))
  · rw [Nat.mul_assoc]
    omega
  · rw [Nat.mul_assoc]
    omega

end Blend

/-- The weights, bias and divisor of every interpolation of R271, R272, R274 and R275. -/
def interpolationRows : List (Nat × Nat × Nat × Nat) :=
  [(4, 2, 3, 6), (2, 4, 3, 6), (1, 1, 1, 2), (12, 2, 7, 14), (10, 4, 7, 14), (8, 6, 7, 14), (6, 8, 7, 14),
    (4, 10, 7, 14), (2, 12, 7, 14), (8, 2, 5, 10), (6, 4, 5, 10), (4, 6, 5, 10), (2, 8, 5, 10)]

/-- R282: in every row the weights sum to the divisor, and the bias is half of it. -/
theorem interpolationRows_weights :
    ∀ row ∈ interpolationRows, row.1 + row.2.1 = row.2.2.2 ∧ 2 * row.2.2.1 = row.2.2.2 ∧ 0 < row.2.2.2 := by
  decide

/-- Settles O32: every interpolation is a blend with weights that sum to the divisor and half of it as bias. -/
theorem interpolationStaysBetweenEndpoints : Obligations.InterpolationStaysBetweenEndpoints := by
  intro x y u v bias div hrow
  obtain ⟨hweights, hbias, hpos⟩ := interpolationRows_weights _ hrow
  exact blend_rounds x y hweights hbias hpos

/-! ### Colour palettes -/

/-- R271, R272: each channel of a palette colour between the endpoints is the weighted mean of theirs. -/
theorem blendPixel_channel_toNat {ch : Pixel → Byte} (hch : ch ∈ [Pixel.r, Pixel.g, Pixel.b]) {u v bias div : Nat}
    (hweights : u + v = div) (hbias : bias < div) (p q : Pixel) :
    (ch (blendPixel u v bias div p q)).toNat = (u * (ch p).toNat + v * (ch q).toNat + bias) / div := by
  simp only [List.mem_cons, List.not_mem_nil, or_false] at hch
  rcases hch with rfl | rfl | rfl <;> exact blend_toNat _ _ hweights hbias

/-- R271, R283: every entry of the four-colour palette is opaque. -/
theorem pal4_a (c0 c1 : BitVec 16) (i : BitVec 2) : (pal4 c0 c1 i).a = 255#8 := by
  unfold pal4
  split <;> rfl

/-- R272, R283: with both endpoints black only entry 3 of the three-colour palette is not opaque black. -/
theorem pal3_black (i : BitVec 2) :
    pal3 0#16 0#16 i = if i.toNat = 3 then (⟨0, 0, 0, 0⟩ : Pixel) else ⟨0, 0, 0, 255⟩ := by
  revert i
  decide

/-- 30_encoding.md R126: the selector of tile pixel k as a number. -/
theorem colourIndex_toNat (sel : BitVec 32) (k : Nat) : (colourIndex sel k).toNat = sel.toNat / 4 ^ k % 4 := by
  rw [colourIndex, BitVec.extractLsb'_toNat, Nat.shiftRight_eq_div_pow, Nat.pow_mul]

/-! ### Alpha palettes -/

section Alphas
variable (a0 a1 : Byte)

/-- R274: the eight levels between a0 and a1. -/
theorem alpha8_levels :
    (List.range 8).map (fun i => (alpha8 a0 a1 (BitVec.ofNat 3 i)).toNat) =
      [a0.toNat, a1.toNat, (12 * a0.toNat + 2 * a1.toNat + 7) / 14, (10 * a0.toNat + 4 * a1.toNat + 7) / 14,
       (8 * a0.toNat + 6 * a1.toNat + 7) / 14, (6 * a0.toNat + 8 * a1.toNat + 7) / 14,
       (4 * a0.toNat + 10 * a1.toNat + 7) / 14, (2 * a0.toNat + 12 * a1.toNat + 7) / 14] := by
  have hblend := fun {u v : Nat} (h : u + v = 14) => blend_toNat a0 a1 h (bias := 7) (by decide)
  rw [← hblend (u := 12) rfl, ← hblend (u := 10) rfl, ← hblend (u := 8) rfl, ← hblend (u := 6) rfl,
    ← hblend (u := 4) rfl, ← hblend (u := 2) rfl]
  rfl

/-- R275: the six levels between a0 and a1, and the two fixed ones. -/
theorem alpha6_levels :
    (List.range 8).map (fun i => (alpha6 a0 a1 (BitVec.ofNat 3 i)).toNat) =
      [a0.toNat, a1.toNat, (8 * a0.toNat + 2 * a1.toNat + 5) / 10, (6 * a0.toNat + 4 * a1.toNat + 5) / 10,
       (4 * a0.toNat + 6 * a1.toNat + 5) / 10, (2 * a0.toNat + 8 * a1.toNat + 5) / 10, 0, 255] := by
  have hblend := fun {u v : Nat} (h : u + v = 10) => blend_toNat a0 a1 h (bias := 5) (by decide)
  rw [← hblend (u := 8) rfl, ← hblend (u := 6) rfl, ← hblend (u := 4) rfl, ← hblend (u := 2) rfl]
  rfl

end Alphas

/-- Settles O31: the interpolated entries are weighted means, the others are the endpoints and the fixed values. -/
theorem paletteEntriesAreTheSpecs : Obligations.PaletteEntriesAreTheSpecs := by
  refine ⟨fun c0 c1 => ⟨rfl, rfl, rfl, rfl, rfl, rfl, rfl, rfl, rfl, fun ch hch => ?_⟩, ?_⟩
  · refine ⟨blendPixel_channel_toNat hch rfl (by decide) .., blendPixel_channel_toNat hch rfl (by decide) .., ?_⟩
    have hmean := blendPixel_channel_toNat hch (rfl : 1 + 1 = 2) (bias := 1) (by decide) (rgb565 c0) (rgb565 c1)
    rwa [Nat.one_mul, Nat.one_mul] at hmean
  · rintro a0 a1 _ _ rfl rfl
    refine ⟨fun hgt => ?_, fun hle => ?_⟩
    · simp only [alphaPalette, if_pos hgt]
      exact alpha8_levels a0 a1
    · simp only [alphaPalette, if_neg (Nat.not_lt.mpr hle)]
      exact alpha6_levels a0 a1

/-- Settles O35: the mode picks the palette; the four-colour one is opaque, the black three-colour one but for
entry 3. -/
theorem dxt1OpacityFollowsTheMode : Obligations.Dxt1OpacityFollowsTheMode := by
  refine fun blk k _ => ⟨fun hgt => ?_, fun h0 h1 => ?_⟩
  · rw [dxt1Pixel, if_pos hgt]
    exact pal4_a ..
  · rw [dxt1Pixel, h0, h1, if_neg (Nat.lt_irrefl _), pal3_black, colourIndex_toNat]

end Sys2Proof.Machine
end

section
/-! PROOFS. BLK_DECODE: the fields of a block in the registers BLK_IN, and the tile it writes
(spec/30_encoding.md R125 to R128, spec/44_block_decompressor.md R273, R276, R277, R281). -/

namespace Sys2Proof.Machine

/-! ### The fields of BLK_IN -/

section Fields
variable (s : State)

/-- 10_state.md R44: byte j of register i is byte 4i + j of the block. -/
theorem blkInBytes_getD (i j : Fin 4) : (blkInBytes s).getD (4 * i.val + j.val) 0 = byteOf s.blkIn[i] j.val := by
  have hregs : s.blkIn.toList = [s.blkIn[0], s.blkIn[1], s.blkIn[2], s.blkIn[3]] := by
    obtain ⟨⟨regs⟩, hlen⟩ := s.blkIn
    match regs, hlen with
    | [_, _, _, _], _ => rfl
  rw [blkInBytes, hregs]
  fin_cases i <;> fin_cases j <;> rfl

/-- A half of a register is the 16-bit field at its two bytes. -/
theorem le16_blkInBytes_low (i : Fin 4) : le16 (blkInBytes s) (4 * i.val) = s.blkIn[i].extractLsb' 0 16 := by
  calc le16 (blkInBytes s) (4 * i.val)
    _ = byteOf s.blkIn[i] 1 ++ byteOf s.blkIn[i] 0 :=
      congrArg₂ (fun hi lo : Byte => hi ++ lo) (blkInBytes_getD s i 1) (blkInBytes_getD s i 0)
    _ = s.blkIn[i].extractLsb' 0 16 := BitVec.extractLsb'_append_extractLsb'_eq_extractLsb' rfl

theorem le16_blkInBytes_high (i : Fin 4) : le16 (blkInBytes s) (4 * i.val + 2) = s.blkIn[i].extractLsb' 16 16 := by
  calc le16 (blkInBytes s) (4 * i.val + 2)
    _ = byteOf s.blkIn[i] 3 ++ byteOf s.blkIn[i] 2 :=
      congrArg₂ (fun hi lo : Byte => hi ++ lo) (blkInBytes_getD s i 3) (blkInBytes_getD s i 2)
    _ = s.blkIn[i].extractLsb' 16 16 := BitVec.extractLsb'_append_extractLsb'_eq_extractLsb' rfl

/-- A register is the 32-bit field at its four bytes. -/
theorem le32_blkInBytes (i : Fin 4) : le32 (blkInBytes s) (4 * i.val) = s.blkIn[i] := by
  rw [le32, le16_blkInBytes_low, le16_blkInBytes_high]
  exact append_halves (h := 16) (l := 16) s.blkIn[i]

/-- 30_encoding.md R127: the alpha selectors are the high half of BLK_IN0 and, above it, BLK_IN1. -/
theorem le48_blkInBytes : le48 (blkInBytes s) 2 = s.blkIn[1] ++ s.blkIn[0].extractLsb' 16 16 := by
  calc le48 (blkInBytes s) 2
    _ = le16 (blkInBytes s) 6 ++ (le16 (blkInBytes s) 4 ++ le16 (blkInBytes s) 2) := rfl
    _ = le32 (blkInBytes s) 4 ++ le16 (blkInBytes s) 2 := BitVec.append_assoc.symm
    _ = s.blkIn[1] ++ s.blkIn[0].extractLsb' 16 16 :=
      congrArg₂ (fun (hi : BitVec 32) (lo : BitVec 16) => hi ++ lo) (le32_blkInBytes s 1) (le16_blkInBytes_high s 0)

end Fields

/-! ### The tile -/

section Tile
variable {s : State} (k : Nat)

/-- R273: pixel k of the DXT1 block in BLK_IN. -/
theorem dxt1Pixel_blkInBytes :
    dxt1Pixel (blkInBytes s) k =
      if (s.blkIn[0].extractLsb' 0 16).toNat > (s.blkIn[0].extractLsb' 16 16).toNat then
        pal4 (s.blkIn[0].extractLsb' 0 16) (s.blkIn[0].extractLsb' 16 16) (colourIndex s.blkIn[1] k)
      else pal3 (s.blkIn[0].extractLsb' 0 16) (s.blkIn[0].extractLsb' 16 16) (colourIndex s.blkIn[1] k) := by
  have hc0 : le16 (blkInBytes s) 0 = s.blkIn[0].extractLsb' 0 16 := le16_blkInBytes_low s 0
  have hc1 : le16 (blkInBytes s) 2 = s.blkIn[0].extractLsb' 16 16 := le16_blkInBytes_high s 0
  have hsel : le32 (blkInBytes s) 4 = s.blkIn[1] := le32_blkInBytes s 1
  rw [dxt1Pixel, hc0, hc1, hsel]

/-- R276, R277: pixel k of the DXT5 block in BLK_IN. -/
theorem dxt5Pixel_blkInBytes :
    dxt5Pixel (blkInBytes s) k =
      { pal4 (s.blkIn[2].extractLsb' 0 16) (s.blkIn[2].extractLsb' 16 16) (colourIndex s.blkIn[3] k) with
        a := alphaPalette (s.blkIn[0].extractLsb' 0 8) (s.blkIn[0].extractLsb' 8 8)
          (alphaIndex (s.blkIn[1] ++ s.blkIn[0].extractLsb' 16 16) k) } := by
  have ha0 : (blkInBytes s).getD 0 0 = s.blkIn[0].extractLsb' 0 8 := blkInBytes_getD s 0 0
  have ha1 : (blkInBytes s).getD 1 0 = s.blkIn[0].extractLsb' 8 8 := blkInBytes_getD s 0 1
  have hc0 : le16 (blkInBytes s) 8 = s.blkIn[2].extractLsb' 0 16 := le16_blkInBytes_low s 2
  have hc1 : le16 (blkInBytes s) 10 = s.blkIn[2].extractLsb' 16 16 := le16_blkInBytes_high s 2
  have hcsel : le32 (blkInBytes s) 12 = s.blkIn[3] := le32_blkInBytes s 3
  rw [dxt5Pixel, ha0, ha1, le48_blkInBytes, hc0, hc1, hcsel]

/-- R281: while not BUSY, BLK_DECODE writes the sixteen packed pixels of its block and nothing else. -/
theorem blkDecode_of_free (hb : s.busy = false) (f : List Byte → Nat → Pixel) :
    ∃ t, blkDecode f s = .next t ∧ t = { s with blkOut := t.blkOut } ∧
      ∀ k : Fin 16, t.blkOut[k] = (f (blkInBytes s) k.val).pack :=
  ⟨_, unlessBusy_free hb _, rfl, fun k => Vector.getElem_ofFn k.isLt⟩

end Tile

/-- Settles O33: the tile of BLK_IN, its fields read from BLK_IN0 and BLK_IN1. -/
theorem blkDecodeDxt1DecodesTheTile : Obligations.BlkDecodeDxt1DecodesTheTile := by
  rintro s _ _ hb rfl rfl
  obtain ⟨t, hrun, hframe, htile⟩ := blkDecode_of_free hb dxt1Pixel
  refine ⟨t, hrun, hframe, fun k => ?_⟩
  rw [htile k, dxt1Pixel_blkInBytes]
  rfl

/-- Settles O34: the tile of BLK_IN, its fields read from all four registers, packed with the alpha on top. -/
theorem blkDecodeDxt5DecodesTheTile : Obligations.BlkDecodeDxt5DecodesTheTile := by
  rintro s _ hb rfl
  obtain ⟨t, hrun, hframe, htile⟩ := blkDecode_of_free hb dxt5Pixel
  refine ⟨t, hrun, hframe, fun k => ⟨_, rfl, ?_⟩⟩
  rw [htile k, dxt5Pixel_blkInBytes]
  rfl

end Sys2Proof.Machine
end

section
/-! PROOFS. The DECODE step of a block frame (spec/44_block_decompressor.md R278 to R280,
spec/45_frame_dispatcher.md R316): the frame as one list of placed pixels in write order, what either edge policy does
with a pixel, and the memory each of them leaves. -/

namespace Sys2Proof.Machine

/-! ### Paintings -/

section Paintings
variable {α β : Type} {f : α → Memory → Painted} {m : Memory}

/-- R280: a painting that has stopped at the buffer's end or faulted goes no further. -/
def Painted.andThen (r : Painted) (next : Memory → Painted) : Painted :=
  match r with
  | .done m => next m
  | .bounds m => .bounds m
  | .fault e => .fault e

theorem paint_cons (a : α) (as : List α) : paint f (a :: as) m = (f a m).andThen (paint f as) := by
  rw [paint]
  cases f a m <;> rfl

theorem paint_append (as bs : List α) : paint f (as ++ bs) m = (paint f as m).andThen (paint f bs) := by
  induction as generalizing m with
  | nil => rfl
  | cons a rest ih =>
    rw [List.cons_append, paint_cons, paint_cons]
    cases f a m with
    | done m' => exact ih
    | bounds m' => rfl
    | fault e => rfl

theorem paint_map (g : β → α) (bs : List β) : paint f (bs.map g) m = paint (fun b => f (g b)) bs m := by
  induction bs generalizing m with
  | nil => rfl
  | cons b rest ih =>
    rw [List.map_cons, paint_cons, paint_cons, show paint f (rest.map g) = paint (fun b => f (g b)) rest from
      funext fun _ => ih]

/-- Painting a list made of parts is painting part after part. -/
theorem paint_flatMap (g : β → List α) (bs : List β) :
    paint f (bs.flatMap g) m = paint (fun b => paint f (g b)) bs m := by
  induction bs generalizing m with
  | nil => rfl
  | cons b rest ih =>
    rw [List.flatMap_cons, paint_append, paint_cons, show paint f (rest.flatMap g) = paint (fun b => paint f (g b)) rest
      from funext fun _ => ih]

/-- Paintings whose actions agree on the listed items agree. -/
theorem paint_congr {g : α → Memory → Painted} {as : List α} (h : ∀ a ∈ as, f a = g a) :
    paint f as m = paint g as m := by
  induction as generalizing m with
  | nil => rfl
  | cons a rest ih =>
    rw [paint_cons, paint_cons, h a (List.mem_cons_self ..), show paint f rest = paint g rest from
      funext fun _ => ih fun b hb => h b (List.mem_cons_of_mem _ hb)]

/-- R280: a painting stops at the first item that does not fit, with all items before it written. -/
theorem paint_eq_bounds {addr : α → Nat} {bytes : α → List Byte} {fits : α → Bool} {as : List α}
    (hfit : ∀ a m, fits a = true → f a m = .done (m.writeList (addr a) (bytes a)))
    (hend : ∀ a m, fits a = false → f a m = .bounds m) (hstop : ∃ a ∈ as, fits a = false) :
    paint f as m = .bounds (Memory.writeAll addr bytes (as.takeWhile fits) m) := by
  induction as generalizing m with
  | nil => simp at hstop
  | cons a rest ih =>
    rw [paint_cons]
    cases ha : fits a with
    | false => rw [hend a m ha, List.takeWhile_cons_of_neg (by simp [ha])]; rfl
    | true =>
      obtain ⟨b, hb, hbad⟩ := hstop
      have hrest : b ∈ rest := (List.mem_cons.mp hb).resolve_left (by rintro rfl; simp [ha] at hbad)
      rw [hfit a m ha, List.takeWhile_cons_of_pos ha]
      exact ih ⟨b, hrest, hbad⟩

end Paintings

/-! ### The pixels of a block frame -/

/-- A decoded pixel and its place in the frame. -/
structure PlacedPixel where
  x : Nat
  y : Nat
  pixel : Pixel

/-- The pixel at (x, y) of the tiles of a block frame: of block (x/4, y/4), the tile pixel 4(y%4) + x%4 (R278). -/
def State.tilePixel (s : State) (dec : List Byte → Nat → Pixel) (bb off x y : Nat) : Pixel :=
  dec ((accRead s (off + (y / 4 * ceilQuarter s.hdr.width.toNat + x / 4) * bb) bb).getD []) (4 * (y % 4) + x % 4)

/-- The pixels of all tiles of a block frame in write order (R278). -/
def State.tilePixels (s : State) (dec : List Byte → Nat → Pixel) (bb off : Nat) : List PlacedPixel :=
  (raster (ceilQuarter s.hdr.width.toNat) (ceilQuarter s.hdr.height.toNat)).flatMap fun p =>
    (List.range 16).map fun k =>
      ⟨4 * p.1 + k % 4, 4 * p.2 + k / 4,
        dec ((accRead s (off + (p.2 * ceilQuarter s.hdr.width.toNat + p.1) * bb) bb).getD []) k⟩

/-- R278: the blocks of a row or column cover it. -/
theorem lt_four_mul_ceilQuarter {i n : Nat} (hi : i < n) : i < 4 * ceilQuarter n := by
  unfold ceilQuarter
  omega

section Tiles
variable {s : State} {dec : List Byte → Nat → Pixel} {bb off : Nat}

/-- The tiles hold one pixel at each place from the top left to the last tile's end. -/
theorem State.mem_tilePixels {w : PlacedPixel} :
    w ∈ s.tilePixels dec bb off ↔ w.x < 4 * ceilQuarter s.hdr.width.toNat ∧
      w.y < 4 * ceilQuarter s.hdr.height.toNat ∧ w.pixel = s.tilePixel dec bb off w.x w.y := by
  simp only [tilePixels, List.mem_flatMap, List.mem_map, mem_raster, List.mem_range]
  constructor
  · rintro ⟨⟨bx, by'⟩, ⟨hbx, hby⟩, k, hk, rfl⟩
    have hx : (4 * bx + k % 4) / 4 = bx := by omega
    have hy : (4 * by' + k / 4) / 4 = by' := by omega
    have hindex : 4 * ((4 * by' + k / 4) % 4) + (4 * bx + k % 4) % 4 = k := by omega
    simp only [tilePixel, hx, hy, hindex, and_true]
    dsimp only at hbx hby
    omega
  · obtain ⟨x, y, p⟩ := w
    rintro ⟨hx, hy, hpixel⟩
    dsimp only at hx hy hpixel
    subst hpixel
    refine ⟨(x / 4, y / 4), ⟨Nat.div_lt_of_lt_mul hx, Nat.div_lt_of_lt_mul hy⟩, 4 * (y % 4) + x % 4, by omega, ?_⟩
    have hcol : 4 * (x / 4) + (4 * (y % 4) + x % 4) % 4 = x := by omega
    have hrow : 4 * (y / 4) + (4 * (y % 4) + x % 4) / 4 = y := by omega
    simp only [hcol, hrow, tilePixel]

/-- Every place of the image lies in a tile. -/
theorem State.mem_tilePixels_of_image {x y : Nat} (hx : x < s.hdr.width.toNat) (hy : y < s.hdr.height.toNat) :
    ⟨x, y, s.tilePixel dec bb off x y⟩ ∈ s.tilePixels dec bb off :=
  mem_tilePixels.mpr ⟨lt_four_mul_ceilQuarter hx, lt_four_mul_ceilQuarter hy, rfl⟩

/-- A place holds one pixel only. -/
theorem State.eq_of_mem_tilePixels {w : PlacedPixel} {x y : Nat} (hw : w ∈ s.tilePixels dec bb off)
    (hplace : (w.x, w.y) = (x, y)) : w = ⟨x, y, s.tilePixel dec bb off x y⟩ := by
  obtain ⟨-, -, hpixel⟩ := mem_tilePixels.mp hw
  obtain ⟨rfl, rfl⟩ := Prod.mk.inj hplace
  rw [← hpixel]

/-- R278: where every block's bytes can be read, a block frame is painted pixel after pixel. -/
theorem decodeBlocks_eq_paint
    (hread : ∀ p ∈ raster (ceilQuarter s.hdr.width.toNat) (ceilQuarter s.hdr.height.toNat),
      ∃ blk, accRead s (off + (p.2 * ceilQuarter s.hdr.width.toNat + p.1) * bb) bb = some blk) :
    decodeBlocks dec bb off s =
      paint (fun w => writeBlockPixel s w.x w.y w.pixel) (s.tilePixels dec bb off) s.dest := by
  rw [State.tilePixels, paint_flatMap, decodeBlocks]
  refine paint_congr fun p hp => funext fun m => ?_
  obtain ⟨blk, hblk⟩ := hread p hp
  rw [blockStep, paint_map, hblk]
  rfl

/-- The writes LEGACY makes are those of the placed pixels. -/
theorem State.tileWrites_eq_map (f : Format) :
    s.tileWrites f bb dec = (s.tilePixels dec bb (s.source f)).map fun w =>
      (s.fb.base.toNat + w.y * s.fb.stride.toNat + 4 * w.x, w.pixel) := by
  rw [tilePixels, List.map_flatMap]
  simp only [List.map_map]
  rfl

end Tiles

/-! ### Writing a placed pixel -/

/-- R121, R230: the block formats have an alpha channel, so a destination pixel has four bytes. -/
theorem State.bufferAccepted.nch_of_block {s : State} (h : s.bufferAccepted) {f : Format} {bb : Nat}
    (htag : Format.ofTag s.hdr.format = some f) (hunit : f.unit = .block bb) : s.fb.nch.toNat = 4 := by
  have halpha : f.hasAlpha = true := by
    cases f with
    | dxt1 | dxt5 => rfl
    | _ => cases hunit
  obtain ⟨-, -, -, hnch⟩ := h
  rw [hnch, Hdr.nch, Hdr.hasAlpha, htag]
  exact if_pos halpha

/-- The bytes that CLIP writes for a placed pixel: none outside the image (R279). -/
def State.clippedBytes (s : State) (w : PlacedPixel) : List Byte :=
  if w.x < s.hdr.width.toNat ∧ w.y < s.hdr.height.toNat then w.pixel.channels else []

section Writes
variable {s : State} (h : s.bufferAccepted) (hnch : s.fb.nch.toNat = 4)
include h hnch

/-- R279, R280: under either edge policy a pixel of the image is written whole. -/
theorem State.bufferAccepted.writeBlockPixel_image {x y : Nat} (hx : x < s.hdr.width.toNat)
    (hy : y < s.hdr.height.toNat) (p : Pixel) (m : Memory) :
    writeBlockPixel s x y p m = .done (m.writeList (s.pixelAddr x y 0) p.channels) := by
  have hroom := h.pixel_le hx hy
  obtain ⟨-, -, hspace, -⟩ := h
  have haddr : s.fb.base.toNat + y * s.fb.stride.toNat + 4 * x = s.pixelAddr x y 0 := by
    rw [pixelAddr, hnch]
    omega
  have hlen : p.channels.length = 4 := rfl
  have hend : s.pixelAddr x y 0 + 4 ≤ s.fb.base.toNat + s.fb.size.toNat := by
    rw [hnch] at hroom
    omega
  simp only [writeBlockPixel, haddr, if_neg (Nat.not_lt.mpr hend), if_pos (And.intro hx hy), ite_self]
  exact writeChannels_done _ _ m (by omega)

/-- R279: under CLIP a placed pixel is written where it lies in the image and discarded elsewhere. -/
theorem State.bufferAccepted.writeBlockPixel_clip (hclip : s.edgeLegacy = false) (w : PlacedPixel) (m : Memory) :
    writeBlockPixel s w.x w.y w.pixel m = .done (m.writeList (s.pixelAddr w.x w.y 0) (s.clippedBytes w)) := by
  by_cases himage : w.x < s.hdr.width.toNat ∧ w.y < s.hdr.height.toNat
  · rw [clippedBytes, if_pos himage]
    exact h.writeBlockPixel_image hnch himage.1 himage.2 w.pixel m
  · simp only [writeBlockPixel, hclip, Bool.false_eq_true, if_false, if_neg himage, clippedBytes]
    rfl

end Writes

/-- R280: LEGACY writes a pixel that ends inside the buffer, and stops before any other. -/
theorem State.bufferAccepted.writeBlockPixel_legacy {s : State} (h : s.bufferAccepted) (hlegacy : s.edgeLegacy = true)
    (x y : Nat) (p : Pixel) (m : Memory) :
    writeBlockPixel s x y p m =
      if s.fb.base.toNat + y * s.fb.stride.toNat + 4 * x + 4 ≤ s.fb.base.toNat + s.fb.size.toNat then
        .done (m.writeList (s.fb.base.toNat + y * s.fb.stride.toNat + 4 * x) p.channels)
      else .bounds m := by
  have hlen : p.channels.length = 4 := rfl
  obtain ⟨-, -, hspace, -⟩ := h
  simp only [writeBlockPixel, hlegacy, if_true]
  split_ifs with hpast hfit hfit
  · omega
  · rfl
  · exact writeChannels_done _ _ m (by omega)
  · omega

/-! ### The frame -/

section Frame
variable {s : State} {dec : List Byte → Nat → Pixel} {bb off : Nat}

section Accepted
variable (h : s.bufferAccepted) (hnch : s.fb.nch.toNat = 4)
  (hread : ∀ p ∈ raster (ceilQuarter s.hdr.width.toNat) (ceilQuarter s.hdr.height.toNat),
    ∃ blk, accRead s (off + (p.2 * ceilQuarter s.hdr.width.toNat + p.1) * bb) bb = some blk)
include h hnch hread

/-- R279: a block frame under CLIP has each pixel of the image in its place, and no other byte of memory changed. -/
theorem State.bufferAccepted.decodeBlocks_clip (hclip : s.edgeLegacy = false) :
    ∃ m, decodeBlocks dec bb off s = .done m ∧
      (∀ x y c, x < s.hdr.width.toNat → y < s.hdr.height.toNat → c < 4 →
        m.read (s.pixelAddr x y c) = (s.tilePixel dec bb off x y).channels[c]?) ∧
      ∀ a, (∀ x y c, x < s.hdr.width.toNat → y < s.hdr.height.toNat → c < 4 → a ≠ s.pixelAddr x y c) →
        m.read a = s.dest.read a := by
  refine ⟨_, (decodeBlocks_eq_paint hread).trans (paint_eq_writeAll fun w _ m => h.writeBlockPixel_clip hnch hclip w m),
    fun x y c hx hy hc => ?_, fun a ha => ?_⟩
  · have hbytes : s.clippedBytes ⟨x, y, s.tilePixel dec bb off x y⟩ = (s.tilePixel dec bb off x y).channels :=
      if_pos ⟨hx, hy⟩
    rw [← hbytes]
    refine Memory.read_writeAll_in (addr := fun w : PlacedPixel => s.pixelAddr w.x w.y 0)
      (a := ⟨x, y, s.tilePixel dec bb off x y⟩) (State.mem_tilePixels_of_image hx hy) (by rw [hbytes]; exact hc)
      fun w hw hne => ?_
    unfold clippedBytes
    split_ifs with himage
    · have hplace : (w.x, w.y) ≠ (x, y) := fun heq => hne (State.eq_of_mem_tilePixels hw heq)
      have hapart := h.pixelAddr_apart hx hy himage.1 himage.2 hplace (c := c) (by omega)
      rwa [hnch] at hapart
    · exact Nat.lt_or_ge ..
  · refine Memory.read_writeAll_out fun w _ => ?_
    unfold clippedBytes
    split_ifs with himage
    · by_contra hin
      have hlen : w.pixel.channels.length = 4 := rfl
      refine ha w.x w.y (a - s.pixelAddr w.x w.y 0) himage.1 himage.2 (by omega) ?_
      rw [s.pixelAddr_eq_add]
      omega
    · exact Nat.lt_or_ge ..

/-- R279: of whole blocks every pixel lies in the image, so either edge policy writes it. -/
theorem State.bufferAccepted.decodeBlocks_whole (hw : s.hdr.width.toNat % 4 = 0) (hh : s.hdr.height.toNat % 4 = 0) :
    decodeBlocks dec bb off s =
      .done (Memory.writeAll (fun w : PlacedPixel => s.pixelAddr w.x w.y 0) (fun w => w.pixel.channels)
        (s.tilePixels dec bb off) s.dest) := by
  refine (decodeBlocks_eq_paint hread).trans (paint_eq_writeAll fun w hmem m => ?_)
  obtain ⟨hx, hy, -⟩ := State.mem_tilePixels.mp hmem
  unfold ceilQuarter at hx hy
  exact h.writeBlockPixel_image hnch (by omega) (by omega) w.pixel m

end Accepted

/-- R280: one write of LEGACY, all of it inside the buffer or none of it. -/
def State.legacyWrite (s : State) (w : Nat × Pixel) (m : Memory) : Painted :=
  if w.1 + 4 ≤ s.fb.base.toNat + s.fb.size.toNat then .done (m.writeList w.1 w.2.channels) else .bounds m

/-- R280: a block frame under LEGACY is painted write after write. -/
theorem State.bufferAccepted.decodeBlocks_legacy {f : Format} (h : s.bufferAccepted) (hlegacy : s.edgeLegacy = true)
    (hread : ∀ p ∈ raster (ceilQuarter s.hdr.width.toNat) (ceilQuarter s.hdr.height.toNat),
      ∃ blk, accRead s (s.source f + (p.2 * ceilQuarter s.hdr.width.toNat + p.1) * bb) bb = some blk) :
    decodeBlocks dec bb (s.source f) s = paint s.legacyWrite (s.tileWrites f bb dec) s.dest := by
  rw [decodeBlocks_eq_paint hread, State.tileWrites_eq_map, paint_map]
  exact paint_congr fun w _ => funext fun m => h.writeBlockPixel_legacy hlegacy w.x w.y w.pixel m

/-- Where all writes of LEGACY end inside the buffer, all are made. -/
theorem State.paint_legacyWrite_done {writes : List (Nat × Pixel)} {m : Memory}
    (hfit : ∀ w ∈ writes, w.1 + 4 ≤ s.fb.base.toNat + s.fb.size.toNat) :
    paint s.legacyWrite writes m = .done (Memory.writeAll Prod.fst (fun w => w.2.channels) writes m) :=
  paint_eq_writeAll fun w hw _ => if_pos (hfit w hw)

/-- Where a write of LEGACY would pass the buffer's end, those before the first such write are made. -/
theorem State.paint_legacyWrite_bounds {writes : List (Nat × Pixel)} {m : Memory}
    (hpast : ∃ w ∈ writes, s.fb.base.toNat + s.fb.size.toNat < w.1 + 4) :
    paint s.legacyWrite writes m =
      .bounds (Memory.writeAll Prod.fst (fun w => w.2.channels)
        (writes.takeWhile fun w => decide (w.1 + 4 ≤ s.fb.base.toNat + s.fb.size.toNat)) m) := by
  obtain ⟨w, hw, hpast⟩ := hpast
  exact paint_eq_bounds (fun _ _ hfit => if_pos (of_decide_eq_true hfit))
    (fun _ _ hend => if_neg (of_decide_eq_false hend)) ⟨w, hw, decide_eq_false (Nat.not_le.mpr hpast)⟩

end Frame

/-! ### The DECODE step -/

/-- R278: a block format is decoded by its own block decoder, in blocks of its own size. -/
theorem decodeFrame_of_block {f : Format} {bb : Nat} {dec : List Byte → Nat → Pixel} (hunit : f.unit = .block bb)
    (hdec : f.blockFunction = some dec) (off : Nat) (s : State) : decodeFrame f off s = decodeBlocks dec bb off s := by
  cases f with
  | dxt1 | dxt5 => cases hunit; cases hdec; rfl
  | _ => cases hunit

/-- R121: a format in blocks has a block decoder, and its blocks are not empty. -/
theorem Format.blockFunction_of_unit {f : Format} {bb : Nat} (hunit : f.unit = .block bb) :
    0 < bb ∧ ∃ dec, f.blockFunction = some dec := by
  cases f with
  | dxt1 | dxt5 => cases hunit; exact ⟨by decide, _, rfl⟩
  | _ => cases hunit

section Decode
variable {s : State} (h : s.Inv) (hp : s.phase = .decode) {f : Format} {bb : Nat}
  (htag : Format.ofTag s.hdr.format = some f) (hunit : f.unit = .block bb)
include h hp htag hunit

/-- R312, R316: in DECODE the source bytes of every block of a block frame can be read. -/
theorem State.Inv.accRead_block :
    ∀ p ∈ raster (ceilQuarter s.hdr.width.toNat) (ceilQuarter s.hdr.height.toNat),
      ∃ blk, accRead s (s.source f + (p.2 * ceilQuarter s.hdr.width.toNat + p.1) * bb) bb = some blk := by
  intro p hcell
  obtain ⟨hx, hy⟩ := mem_raster.mp hcell
  obtain ⟨-, hrange, -⟩ := h.pending (by rw [hp]; rfl)
  have hframe := hrange f htag
  rw [frameInRange, Geometry.frameReadBytes, show (s.geometry f).format.unit = .block bb from hunit] at hframe
  exact h.accRead_unit hframe (Format.blockFunction_of_unit hunit).1 hx hy

/-- R314: in DECODE the buffer has been accepted, with four bytes for each pixel of a block format. -/
theorem State.Inv.blockBuffer : s.bufferAccepted ∧ s.fb.nch.toNat = 4 :=
  have hbuffer : s.bufferAccepted := h.accepted (by rw [hp]; rfl)
  ⟨hbuffer, hbuffer.nch_of_block htag hunit⟩

end Decode

/-- Settles O41: the frame's painting under CLIP completes with the image's pixels in their places, and the request is
all that the step adds to it. -/
theorem blockFrameIsDecodedAndClipped : Obligations.BlockFrameIsDecodedAndClipped := by
  intro s f bb dec h hp hclip htag hunit hdec
  obtain ⟨hbuffer, hnch⟩ := h.blockBuffer hp htag hunit
  have hread := h.accRead_block hp htag hunit
  obtain ⟨m, hdone, hin, hout⟩ := hbuffer.decodeBlocks_clip (dec := dec) hnch hread hclip
  rw [← decodeFrame_of_block hunit hdec] at hdone
  have hstep := (engineStep_of_decode hp).trans (decodeStep_of_done htag hdone)
  rw [requestDecoded_eq] at hstep
  refine ⟨_, hstep, fun x y c hx hy hc => ?_, hout, rfl⟩
  obtain ⟨blk, hblk⟩ := hread (x / 4, y / 4) (mem_raster.mpr
    ⟨Nat.div_lt_of_lt_mul (lt_four_mul_ceilQuarter hx), Nat.div_lt_of_lt_mul (lt_four_mul_ceilQuarter hy)⟩)
  refine ⟨blk, hblk, ?_⟩
  rw [hin x y c hx hy hc, State.tilePixel, hblk, Option.getD_some]

/-- Settles O42: the frame is LEGACY's writes one after another, all of them or those before the first that would pass
the buffer's end. -/
theorem legacyFrameStopsAtTheBufferEnd : Obligations.LegacyFrameStopsAtTheBufferEnd := by
  rintro s f bb dec _ h hp hlegacy htag hunit hdec rfl
  obtain ⟨hbuffer, -⟩ := h.blockBuffer hp htag hunit
  have hframe := (decodeFrame_of_block hunit hdec (s.source f) s).trans
    (hbuffer.decodeBlocks_legacy hlegacy (h.accRead_block hp htag hunit))
  rw [engineStep_of_decode hp]
  refine ⟨fun hfit => ?_, fun hpast => ?_⟩
  · rw [decodeStep_of_done htag (hframe.trans (State.paint_legacyWrite_done hfit)), requestDecoded_eq]
    rfl
  · exact decodeStep_of_bounds htag (hframe.trans (State.paint_legacyWrite_bounds hpast))

/-- Settles O43: whole blocks leave no pixel to clip, whatever EDGE_CFG holds. -/
theorem clipAndLegacyAgreeOnWholeBlocks : Obligations.ClipAndLegacyAgreeOnWholeBlocks := by
  intro s f bb edge h hp htag hunit hw hh
  obtain ⟨-, dec, hdec⟩ := Format.blockFunction_of_unit hunit
  obtain ⟨hbuffer, hnch⟩ := h.blockBuffer hp htag hunit
  have hread := h.accRead_block hp htag hunit
  have hother : { s with edgeCfg := BitVec.ofBool s.dxtFloor ++ BitVec.ofBool edge }.bufferAccepted := hbuffer
  exact ⟨_, (decodeFrame_of_block hunit hdec ..).trans (hbuffer.decodeBlocks_whole hnch hread hw hh),
    (decodeFrame_of_block hunit hdec ..).trans (hother.decodeBlocks_whole hnch hread hw hh)⟩

end Sys2Proof.Machine
end

section
/-! PROOFS. The host's responses: a write to RSP_CTRL by its value and the phase, and from there each response's own
rule (spec/45_frame_dispatcher.md R314 to R319). -/

namespace Sys2Proof.Machine

/-! ### The write to RSP_CTRL -/

section Writes
variable {s : State}

/-- R106, R319: ACK is read as one of the table's three rows, whose meaning is one: PHASE answers. -/
theorem decodeResponse_ack (req : ReqType) :
    ∃ i, decodeResponse req 1#32 = .run i ∧ ∀ s, exec i s = .next (respondAck s) := by
  cases req with
  | none | alloc | notify | append => exact ⟨_, rfl, fun _ => rfl⟩

theorem hostWrite_ack (s : State) : hostWrite (.to .rspCtrl 1#32) s = .next (respondAck s) := by
  obtain ⟨i, hdec, hexec⟩ := decodeResponse_ack s.phase.reqType
  exact (hostWrite_of_decode_run ((decode_to_rspCtrl _ _).trans hdec)).trans (hexec s)

/-- R319: FAIL is answered by the phase. -/
theorem hostWrite_fail (s : State) : hostWrite (.to .rspCtrl 2#32) s = .next (respondFail s) :=
  hostWrite_of_decode_run (decode_to_rspCtrl s.phase.reqType 2#32)

/-- R106: any other value is refused before the phase is looked at. -/
theorem hostWrite_badResponse {v : Word} (hack : v ≠ 1#32) (hfail : v ≠ 2#32) (s : State) :
    hostWrite (.to .rspCtrl v) s = .next (raiseCmdError .badOperand s) := by
  have hdec : decodeResponse s.phase.reqType v = .refuse .badResponse := (if_neg hack).trans (if_neg hfail)
  exact hostWrite_of_decode_refuse ((decode_to_rspCtrl _ v).trans hdec)

/-- R319: without a pending request both responses report NO_REQUEST. -/
theorem respond_of_noRequest (hnone : s.phase.reqType = .none) :
    respondAck s = raiseCmdError .noRequest s ∧ respondFail s = raiseCmdError .noRequest s := by
  unfold respondAck respondFail
  cases hp : s.phase with
  | allocWait | notifyWait | appendWait => rw [hp] at hnone; cases hnone
  | _ => exact ⟨rfl, rfl⟩

theorem respondAck_of_allocWait (hp : s.phase = .allocWait) : respondAck s = ackAlloc s := by
  simp only [respondAck, hp]

theorem respondAck_of_notifyWait (hp : s.phase = .notifyWait) : respondAck s = requestAppend s := by
  simp only [respondAck, hp, ackNotify]

theorem respondAck_of_appendWait (hp : s.phase = .appendWait) :
    respondAck s = { s with frameIdx := s.frameIdx + 1, phase := .frameStart } := by
  simp only [respondAck, hp, ackAppend]

theorem respondFail_of_allocWait (hp : s.phase = .allocWait) : respondFail s = raiseLoadError .allocRefused s := by
  simp only [respondFail, hp, failAlloc]

/-- R319: NOTIFY and APPEND cannot be refused. -/
theorem respondFail_of_notifyOrAppend (hp : s.phase = .notifyWait ∨ s.phase = .appendWait) :
    respondFail s = raiseCmdError .badOperand s := by
  rcases hp with hp | hp <;> simp only [respondFail, hp]

end Writes

/-- A phase in which no request waits is none of the three wait phases (spec/10_state.md R47). -/
theorem Phase.reqType_eq_none_iff (p : Phase) :
    p.reqType = .none ↔ p ≠ .allocWait ∧ p ≠ .notifyWait ∧ p ≠ .appendWait := by
  cases p <;> decide

/-- Settles O17: a value is ACK, FAIL or neither, and the first two are answered by the phase. -/
theorem responseWritesAreCheckedInOrder : Obligations.ResponseWritesAreCheckedInOrder := by
  intro v s
  refine ⟨fun hack hfail => hostWrite_badResponse hack hfail s, ?_, ?_, ?_, ?_, ?_, ?_⟩
  · intro hv halloc hnotify happend
    obtain ⟨hack, hfail⟩ := respond_of_noRequest ((Phase.reqType_eq_none_iff _).mpr ⟨halloc, hnotify, happend⟩)
    rcases hv with rfl | rfl
    · exact (hostWrite_ack s).trans (congrArg Host.Outcome.next hack)
    · exact (hostWrite_fail s).trans (congrArg Host.Outcome.next hfail)
  · rintro rfl hp
    exact (hostWrite_fail s).trans (congrArg Host.Outcome.next (respondFail_of_notifyOrAppend hp))
  · rintro rfl -
    exact hostWrite_fail s
  all_goals
    rintro rfl -
    exact hostWrite_ack s

/-! ### The answers to ALLOC -/

section Alloc
variable {s : State}

/-- R314: a stride shorter than a row is found first. -/
theorem ackAlloc_of_strideShort (hstride : s.rsp.stride.toNat < leastStride s.hdr) :
    ackAlloc s = raiseLoadError .strideShort s := if_pos hstride

/-- R314: the size is compared once the stride passes. -/
theorem ackAlloc_of_sizeShort (hstride : leastStride s.hdr ≤ s.rsp.stride.toNat)
    (hsize : s.rsp.size.toNat < needBytes s.hdr s.rsp.stride.toNat) :
    ackAlloc s = raiseLoadError .sizeShort s := by
  rw [ackAlloc, if_neg (Nat.not_lt_of_le hstride), if_pos hsize]

/-- R314: last, the buffer must end at or below 2^64. -/
theorem ackAlloc_of_wrap (hstride : leastStride s.hdr ≤ s.rsp.stride.toNat)
    (hsize : needBytes s.hdr s.rsp.stride.toNat ≤ s.rsp.size.toNat)
    (hend : s.rsp.base.toNat + s.rsp.size.toNat > 2 ^ 64) : ackAlloc s = raiseLoadError .addrWrap s := by
  rw [ackAlloc, if_neg (Nat.not_lt_of_le hstride), if_neg (Nat.not_lt_of_le hsize), if_pos hend]

/-- R314: a buffer that passes is latched. -/
theorem ackAlloc_of_accepted (hstride : leastStride s.hdr ≤ s.rsp.stride.toNat)
    (hsize : needBytes s.hdr s.rsp.stride.toNat ≤ s.rsp.size.toNat)
    (hend : s.rsp.base.toNat + s.rsp.size.toNat ≤ 2 ^ 64) :
    ackAlloc s = { s with
      fb := ⟨s.rsp.base, s.rsp.stride, s.rsp.size, BitVec.ofNat 3 s.hdr.nch⟩
      phase := .decode } := by
  rw [ackAlloc, if_neg (Nat.not_lt_of_le hstride), if_neg (Nat.not_lt_of_le hsize), if_neg (Nat.not_lt_of_le hend)]

/-- R314: with pixels, the rows but the last take a stride each and the last its own bytes; without, nothing. -/
theorem needBytes_eq (h : Hdr) (stride : Nat) :
    needBytes h stride =
      if h.width.toNat = 0 ∨ h.height.toNat = 0 then 0 else (h.height.toNat - 1) * stride + leastStride h := by
  unfold needBytes leastStride
  split_ifs <;> rfl

/-- R230: the count of channels as FB_NCH holds it. -/
theorem ofNat_nch (h : Hdr) : BitVec.ofNat 3 h.nch = if h.hasAlpha then 4#3 else 3#3 := by
  unfold Hdr.nch
  split <;> rfl

end Alloc

/-- Settles O44: `row` is the least stride and `need` the bytes needed, and each clause is one outcome of the checks. -/
theorem allocAnswersLatchTheBufferOrFail : Obligations.AllocAnswersLatchTheBufferOrFail := by
  intro s row need hp hrow hneed
  have hleast : row = leastStride s.hdr := hrow
  have hbytes : need = needBytes s.hdr s.rsp.stride.toNat := by rw [hneed, hleast, needBytes_eq]
  have hack : exec .rspAckAlloc s = .next (ackAlloc s) := congrArg Host.Outcome.next (respondAck_of_allocWait hp)
  rw [hleast, hbytes, hack]
  refine ⟨fun hshort => ?_, fun hstride hshort => ?_, fun hstride hsize hwrap => ?_, fun hstride hsize hend => ?_,
    ?_⟩
  · exact congrArg Host.Outcome.next (ackAlloc_of_strideShort hshort)
  · exact congrArg Host.Outcome.next (ackAlloc_of_sizeShort hstride hshort)
  · exact congrArg Host.Outcome.next (ackAlloc_of_wrap hstride hsize hwrap)
  · rw [ackAlloc_of_accepted hstride hsize hend, ofNat_nch]
  · exact congrArg Host.Outcome.next (respondFail_of_allocWait hp)

/-! ### The answers to NOTIFY and APPEND -/

/-- R313: while a frame is under way the request registers are what its request wrote. -/
theorem State.Inv.req_eq {s : State} (h : s.Inv) (hf : s.phase.inFrame = true) : s.req = s.requestOf s.req.base := by
  obtain ⟨hlt, -, hwidth, hheight, halpha, hframe, hseq⟩ := h.pending hf
  have hidx : s.req.frame = s.frameIdx.setWidth 16 := by
    apply BitVec.eq_of_toNat_eq
    rw [BitVec.toNat_setWidth, ← hframe, Nat.mod_eq_of_lt s.req.frame.isLt]
  rw [State.requestOf, ← hwidth, ← hheight, ← halpha, ← hidx, ← hseq]

/-- R41, R318: below HDR_FRAMES, which has 16 bits, FRAME_IDX grows without overflow. -/
theorem State.frameIdx_succ_toNat {s : State} (hlt : s.frameIdx.toNat < s.hdr.frames.toNat) :
    (s.frameIdx + 1).toNat = s.frameIdx.toNat + 1 := by
  have hframes := s.hdr.frames.isLt
  exact BitVec.toNat_add_of_lt (y := 1#32) (by rw [show (1#32).toNat = 1 from rfl]; omega)

/-- Settles O45: in NOTIFY_WAIT the request registers already hold what the APPEND request writes. -/
theorem ackNotifyRaisesAppend : Obligations.AckNotifyRaisesAppend := by
  intro s hp
  have hack : exec .rspAckNotify s = .next { s with req := s.requestOf s.fb.base, phase := .appendWait } :=
    congrArg Host.Outcome.next (respondAck_of_notifyWait hp)
  refine ⟨hack, fun h => ⟨?_, h.notifyFirst hp⟩⟩
  rw [hack, ← h.reqBase (.inl hp), ← h.req_eq (by rw [hp]; rfl)]

/-- Settles O46: the frame acknowledged is one of the file's, so the next index is at most HDR_FRAMES. -/
theorem ackAppendGoesToTheNextFrame : Obligations.AckAppendGoesToTheNextFrame := by
  intro s hp
  refine ⟨congrArg Host.Outcome.next (respondAck_of_appendWait hp), fun h => ?_⟩
  obtain ⟨hlt, -⟩ := h.pending (by rw [hp]; rfl)
  exact ⟨State.frameIdx_succ_toNat hlt, hlt⟩

end Sys2Proof.Machine
end

section
/-! PROOFS. The FRAME_START step: the end of the load, the range check and the ALLOC request
(spec/45_frame_dispatcher.md R312, R313, R320; spec/42_volume_address.md R213). -/

namespace Sys2Proof.Machine

section FrameStart
variable {s : State} {f : Format}

theorem engineStep_of_frameStart (hp : s.phase = .frameStart) : engineStep s = .next (frameStartStep s) := by
  simp only [engineStep, hp]

/-- R320: after the last frame the load is finished. -/
theorem frameStartStep_of_last (hlast : s.frameIdx.toNat = s.hdr.frames.toNat) : frameStartStep s = finishLoad s :=
  if_pos hlast

/-- R312: a frame still to come is range-checked. -/
theorem frameStartStep_of_frame (hmore : s.frameIdx.toNat ≠ s.hdr.frames.toNat)
    (htag : Format.ofTag s.hdr.format = some f) :
    frameStartStep s = if frameInRange (s.geometry f) s then requestAlloc s else raiseLoadError .frameRange s := by
  rw [frameStartStep, if_neg hmore]
  simp only [htag]

/-- R312 with U6: a frame is in range where it has no pixel or its source bytes end at or below ACC_SIZE. -/
theorem frameInRange_iff (f : Format) (s : State) :
    frameInRange (s.geometry f) s ↔ s.hdr.width.toNat = 0 ∨ s.hdr.height.toNat = 0 ∨
      s.source f + (s.geometry f).frameReadBytes ≤ s.accSize.toNat :=
  (or_congr_left (s.geometry f).frameReadBytes_eq_zero).trans or_assoc

end FrameStart

/-- Settles O38: the last frame, a frame out of range and a frame in range. -/
theorem frameStartFinishesFailsOrRequests : Obligations.FrameStartFinishesFailsOrRequests := by
  intro s f hp htag
  rw [engineStep_of_frameStart hp]
  refine ⟨fun hlast => ?_, fun hmore hw hh hpast => ?_, fun hmore hfits => ?_⟩
  · exact congrArg Host.Outcome.next (frameStartStep_of_last hlast)
  · have hout : ¬ frameInRange (s.geometry f) s := by
      rw [frameInRange_iff]
      omega
    rw [frameStartStep_of_frame hmore htag, if_neg hout]
    rfl
  · rw [frameStartStep_of_frame hmore htag, if_pos ((frameInRange_iff f s).mpr hfits)]
    rfl

/-- R213: in the frame loop, what a frame with a level reads lies in the payload, which ends at ACC_SIZE. -/
theorem State.Inv.source_add_frameReadBytes_le {s : State} {f : Format} (h : s.Inv) (hl : s.phase.inLoop = true)
    (htag : Format.ofTag s.hdr.format = some f) (hmore : s.frameIdx.toNat ≠ s.hdr.frames.toNat)
    (hmips : 1 ≤ s.hdr.mipcount.toNat) (hround : (∃ bpp, f.unit = .pixel bpp) ∨ s.dxtFloor = false) :
    s.source f + (s.geometry f).frameReadBytes ≤ s.accSize.toNat := by
  obtain ⟨-, hidx, f', htag', htotal, hend⟩ := h.located hl
  obtain rfl : f = f' := Option.some.inj (htag.symm.trans htag')
  have hslice : (s.geometry f).offset s.frameIdx.toNat 0 0 0 + (s.geometry f).mipSize 0 1 ≤ (s.geometry f).total :=
    Geometry.offset_add_mipSize_le_total hmips (Nat.lt_of_le_of_ne hidx hmore) (one_le_mipDim _ 0)
  have hread : (s.geometry f).frameReadBytes ≤ (s.geometry f).mipSize 0 1 := Geometry.frameReadBytes_le_mipSize hround
  calc s.source f + (s.geometry f).frameReadBytes
      = s.payStart.toNat + ((s.geometry f).offset s.frameIdx.toNat 0 0 0 + (s.geometry f).frameReadBytes) :=
        Nat.add_assoc ..
    _ ≤ s.payStart.toNat + (s.geometry f).total := by omega
    _ = s.accSize.toNat := by rw [← htotal, hend]

/-- Settles O39: the invariant puts the frame in range, so O38's last clause is the step. -/
theorem frameRangeCheckPassesAfterParse : Obligations.FrameRangeCheckPassesAfterParse := by
  intro s f h hp htag hmore hmips hround
  obtain ⟨-, -, hrequest⟩ := frameStartFinishesFailsOrRequests s f hp htag
  exact hrequest hmore (.inr (.inr (h.source_add_frameReadBytes_le (by rw [hp]; rfl) htag hmore hmips hround)))

end Sys2Proof.Machine
end

section
/-! PROOFS. The phase table: what each kind of step does to PHASE, from the engine's steps and the instructions up to
the next input (spec/45_frame_dispatcher.md R310). -/

namespace Sys2Proof.Machine

/-- R310: a cause moves PHASE by a row of the table, or it is ABORT or reset and ends in IDLE. -/
def phaseMove (p : Phase) (c : Cause) (q : Phase) : Prop :=
  (p, c, q) ∈ phaseTable ∨ ((c = .abort ∨ c = .reset) ∧ q = .idle)

/-- The next states that `r` answers have the phase of `s`, or one that a cause among `c` moves it to. -/
def Result.movesBy (r : Result) (s : State) (c : Option Cause) : Prop :=
  ∀ t, r = .next t → t.phase ≠ s.phase → ∃ c', c = some c' ∧ phaseMove s.phase c' t.phase

section Moves
variable {s t : State} {c : Option Cause} {r : Result}

theorem movesBy_of_phase_eq (h : t.phase = s.phase) : Result.movesBy (.next t) s c :=
  fun _ ht hne => by cases ht; exact absurd h hne

/-- A next state in phase `q`, by the table's row for it. -/
theorem movesBy_of_row {p : Phase} {c' : Cause} (q : Phase) (hp : s.phase = p) (hq : t.phase = q)
    (hrow : (p, c', q) ∈ phaseTable) : Result.movesBy (.next t) s (some c') :=
  fun _ ht _ => by cases ht; exact ⟨c', rfl, .inl (hp ▸ hq ▸ hrow)⟩

theorem movesBy_fault (e : Fault) : Result.movesBy (.fault e) s c := fun _ ht => by cases ht

/-- The BUSY error changes no phase. -/
theorem movesBy_unlessBusy (h : s.busy = false → r.movesBy s c) : Result.movesBy (unlessBusy s r) s c := by
  intro t ht hne
  rcases unlessBusy_next ht with rfl | ⟨hb, hr⟩
  · exact absurd rfl hne
  · exact h hb t hr hne

/-! ### The engine's steps -/

/-- R311: PARSE ends in FRAME_START or FAILED. -/
theorem validateHeader_phase (s : State) :
    (validateHeader s).phase = .failed ∨ (validateHeader s).phase = .frameStart := by
  rcases validateHeader_cases s with ⟨e, heq⟩ | ⟨f, -, -, -, -, heq⟩ <;> rw [heq]
  · exact .inl rfl
  · exact .inr rfl

/-- R316: a decoded frame waits for NOTIFY or for APPEND. -/
theorem requestDecoded_phase (s : State) :
    (requestDecoded s).phase = .notifyWait ∨ (requestDecoded s).phase = .appendWait := by
  unfold requestDecoded
  split
  · exact .inl rfl
  · exact .inr rfl

theorem parseStep_movesBy (hp : s.phase = .parse) : Result.movesBy (parseStep s) s (some .engine) := by
  unfold parseStep
  split
  · exact movesBy_of_row .failed hp rfl (by decide)
  split
  · exact movesBy_fault _
  · next h _ =>
    rcases validateHeader_phase { s with hdr := latchHeader h } with hq | hq
    · exact movesBy_of_row .failed hp hq (by decide)
    · exact movesBy_of_row .frameStart hp hq (by decide)

theorem frameStartStep_movesBy (hp : s.phase = .frameStart) :
    Result.movesBy (.next (frameStartStep s)) s (some .engine) := by
  unfold frameStartStep
  split
  · exact movesBy_of_row .done hp rfl (by decide)
  split
  · exact movesBy_of_row .failed hp rfl (by decide)
  split
  · exact movesBy_of_row .allocWait hp rfl (by decide)
  · exact movesBy_of_row .failed hp rfl (by decide)

theorem decodeStep_movesBy (hp : s.phase = .decode) : Result.movesBy (decodeStep s) s (some .engine) := by
  intro t ht
  rcases decodeStep_next ht with ⟨-, rfl⟩ | ⟨f, m, -, ⟨-, rfl⟩ | ⟨-, rfl⟩⟩
  · exact movesBy_of_row .failed hp rfl (by decide) _ rfl
  · rcases requestDecoded_phase { s with dest := m } with hq | hq
    · exact movesBy_of_row .notifyWait hp hq (by decide) _ rfl
    · exact movesBy_of_row .appendWait hp hq (by decide) _ rfl
  · exact movesBy_of_row .failed hp rfl (by decide) _ rfl

theorem engineStep_movesBy (s : State) : Result.movesBy (engineStep s) s (some .engine) := by
  unfold engineStep
  split
  · next hp => exact parseStep_movesBy hp
  · next hp => exact frameStartStep_movesBy hp
  · next hp => exact decodeStep_movesBy hp
  all_goals exact movesBy_fault _

/-! ### The instructions -/

/-- R314: ALLOC's ACK grants the frame or fails the load. -/
theorem ackAlloc_phase (s : State) : (ackAlloc s).phase = .failed ∨ (ackAlloc s).phase = .decode := by
  unfold ackAlloc
  split_ifs
  · exact .inl rfl
  · exact .inl rfl
  · exact .inl rfl
  · exact .inr rfl

theorem respondAck_movesBy (s : State) : Result.movesBy (.next (respondAck s)) s (some .ack) := by
  cases hp : s.phase with
  | allocWait =>
    rw [respondAck_of_allocWait hp]
    rcases ackAlloc_phase s with hq | hq
    · exact movesBy_of_row .failed hp hq (by decide)
    · exact movesBy_of_row .decode hp hq (by decide)
  | notifyWait =>
    rw [respondAck_of_notifyWait hp]
    exact movesBy_of_row .appendWait hp rfl (by decide)
  | appendWait =>
    rw [respondAck_of_appendWait hp]
    exact movesBy_of_row .frameStart hp rfl (by decide)
  | _ =>
    rw [(respond_of_noRequest (by rw [hp]; rfl)).1]
    exact movesBy_of_phase_eq rfl

theorem respondFail_movesBy (s : State) : Result.movesBy (.next (respondFail s)) s (some .fail) := by
  cases hp : s.phase with
  | allocWait =>
    rw [respondFail_of_allocWait hp]
    exact movesBy_of_row .failed hp rfl (by decide)
  | notifyWait =>
    rw [respondFail_of_notifyOrAppend (.inl hp)]
    exact movesBy_of_phase_eq rfl
  | appendWait =>
    rw [respondFail_of_notifyOrAppend (.inr hp)]
    exact movesBy_of_phase_eq rfl
  | _ =>
    rw [(respond_of_noRequest (by rw [hp]; rfl)).2]
    exact movesBy_of_phase_eq rfl

/-- R152, R154: a push leaves PHASE, but for a growth that fails the load. -/
theorem pushBytes_movesBy (bs : List Byte) (s : State) : Result.movesBy (pushBytes bs s) s (some .stream) := by
  intro t ht hne
  rcases pushBytes_next ht with ⟨e, rfl⟩ | ⟨hp, -, rfl⟩ | ⟨cap, -, -, rfl⟩
  · exact absurd rfl hne
  · exact movesBy_of_row .failed hp rfl (by decide) _ rfl hne
  · exact absurd rfl hne

/-- R155: LOAD_BEGIN begins a load in the phases between loads. -/
theorem execLoadBegin_movesBy (s : State) : Result.movesBy (execLoadBegin s) s (some .loadBegin) := by
  refine movesBy_unlessBusy fun hb => ?_
  split
  · exact movesBy_of_phase_eq rfl
  · next hp =>
    cases hq : s.phase with
    | accum => exact absurd hq hp
    | idle | done | failed => exact movesBy_of_row .accum hq rfl (by decide)
    | _ => rw [State.busy, hq] at hb; cases hb

/-- R156: LOAD_END moves from ACCUM to PARSE. -/
theorem execLoadEnd_movesBy (s : State) : Result.movesBy (execLoadEnd s) s (some .loadEnd) := by
  refine movesBy_unlessBusy fun _ => ?_
  split
  · next hp => exact movesBy_of_row .parse hp rfl (by decide)
  · exact movesBy_of_phase_eq rfl

/-- R157: ABORT ends in IDLE. -/
theorem execAbort_movesBy (s : State) : Result.movesBy (execAbort s) s (some .abort) := by
  intro t ht _
  cases ht
  exact ⟨_, rfl, .inr ⟨.inl rfl, rfl⟩⟩

theorem exec_movesBy (i : Instr) (s : State) : Result.movesBy (exec i s) s (instrCause i) := by
  cases i with
  | nop => exact movesBy_of_phase_eq rfl
  | loadBegin => exact execLoadBegin_movesBy s
  | loadEnd => exact execLoadEnd_movesBy s
  | abort => exact execAbort_movesBy s
  | vacMipsize level dsel =>
    refine movesBy_unlessBusy fun _ => ?_
    split <;> exact movesBy_of_phase_eq rfl
  | vacOffset =>
    refine movesBy_unlessBusy fun _ => ?_
    split
    · exact movesBy_of_phase_eq rfl
    split
    · exact movesBy_of_phase_eq rfl
    split <;> exact movesBy_of_phase_eq rfl
  | stream1 | stream2 | stream3 | stream4 => exact pushBytes_movesBy _ s
  | rspAckAlloc | rspAckNotify | rspAckAppend => exact respondAck_movesBy s
  | rspFailAlloc => exact respondFail_movesBy s
  | _ => exact movesBy_unlessBusy fun _ => movesBy_of_phase_eq rfl

/-! ### The other writes -/

/-- A refused write leaves PHASE: it reports a command error. -/
theorem refuseWrite_phase {r : Reject} (h : refuseWrite r s = .next t) : t.phase = s.phase := by
  have hraise : ∀ e, unlessBusy s (.next (raiseCmdError e s)) = .next t → t.phase = s.phase := by
    intro e he
    rcases unlessBusy_next he with rfl | ⟨-, hnext⟩
    · rfl
    · cases hnext; rfl
  cases r with
  | illegalCommand | badResponse => cases h; rfl
  | misaligned => cases h
  | pixBlockTag | pixUnsupportedTag | blkPixelTag | blkUnsupportedTag => exact hraise _ h

theorem writeField_phase (r : Reg) (v : Word) (s : State) : (writeField r v s).phase = s.phase := by
  rcases writeField_cases r v s with heq | ⟨_, _, heq⟩ | ⟨-, _, _, _, _, _, _, heq⟩
  all_goals simp only [heq, clearCmdError_phase]

theorem storeReg_phase (r : Reg) (v : Word) (s : State) : (storeReg r v s).phase = s.phase := by
  rcases storeReg_cases r v s with ⟨-, heq⟩ | ⟨-, heq⟩ <;> rw [heq]
  · rfl
  · exact writeField_phase r v s

/-- A register write that changes PHASE is the write of an instruction that is a cause of the table. -/
theorem hostWrite_phase {w : Txn} (h : hostWrite w s = .next t) (hne : t.phase ≠ s.phase) :
    ∃ i c, decode s.phase.reqType w = .run i ∧ instrCause i = some c ∧ phaseMove s.phase c t.phase := by
  unfold hostWrite at h
  split at h
  · next i hdec =>
    obtain ⟨c, hc, hmove⟩ := exec_movesBy i s t h hne
    exact ⟨i, c, hdec, hc, hmove⟩
  · next r _ => exact absurd (refuseWrite_phase h) hne
  · next r v _ => cases h; exact absurd (storeReg_phase r v s) hne
  · cases h; exact absurd rfl hne

/-- The event of a register write is that of its instruction. -/
theorem State.cause_of_write {w : Txn} {rest : List Input} {i : Instr} (hin : s.inputs = .write w :: rest)
    (hdec : decode s.phase.reqType w = .run i) : s.cause = instrCause i := by
  simp only [State.cause, hin, hdec]

end Moves

/-- Settles O53, by the next input: an engine step and a register write move PHASE by the table, reset ends in IDLE,
and the host's reads and its accesses to its own memory leave PHASE. -/
theorem phaseMovesOnlyByTheTable : Obligations.PhaseMovesOnlyByTheTable := by
  intro s t hstep hne
  have hengine : ∀ inputs readData, s.cause = some .engine →
      engineStep { s with inputs := inputs, readData := readData } = .next t →
      ∃ c, s.cause = some c ∧ phaseMove s.phase c t.phase := by
    intro inputs readData hcause hnext
    rw [hcause]
    exact engineStep_movesBy { s with inputs := inputs, readData := readData } t hnext hne
  unfold step at hstep
  split at hstep
  · next hin => exact hengine s.inputs s.readData (by simp only [State.cause, hin]) hstep
  · next w rest hin =>
    obtain ⟨i, c, hdec, hc, hmove⟩ := hostWrite_phase hstep hne
    exact ⟨c, (State.cause_of_write hin hdec).trans hc, hmove⟩
  · unfold hostRead at hstep
    split at hstep <;> cases hstep
    exact absurd rfl hne
  · next mask value rest hin =>
    unfold pollStatus at hstep
    split at hstep
    · cases hstep; exact absurd rfl hne
    · exact hengine s.inputs (statusWord s) (by simp only [State.cause, hin]) hstep
  · next rest hin =>
    unfold engineTurn at hstep
    split at hstep
    · exact hengine rest s.readData (by simp only [State.cause, hin]) hstep
    · cases hstep; exact absurd rfl hne
  · next rest hin =>
    cases hstep
    exact ⟨.reset, by simp only [State.cause, hin], .inr ⟨.inr rfl, rfl⟩⟩
  · cases hstep; exact absurd rfl hne
  · cases hstep; exact absurd rfl hne

end Sys2Proof.Machine
end

section
/-! PROOFS. The requests of a load come in frame order: what a load has raised so far is told by its phase and
FRAME_IDX, and every step taken while BUSY extends it by what the step raises (spec/45_frame_dispatcher.md R322). -/

namespace Sys2Proof.Machine

/-! ### The expected requests -/

/-- R322: frame `n` adds its ALLOC, for frame 0 a NOTIFY, and its APPEND. -/
theorem expectedRequests_succ (n : Nat) :
    expectedRequests (n + 1) = expectedRequests n ++ [(.alloc, n)] ++
      if n = 0 then [(.notify, 0), (.append, 0)] else [(.append, n)] := by
  simp only [expectedRequests, List.range_succ, List.flatMap_append, List.flatMap_singleton, List.append_assoc]
  split
  · next h0 => rw [h0]; rfl
  · rfl

/-- ALLOC is the first request of a frame. -/
theorem expectedRequests_alloc_prefix (n : Nat) :
    expectedRequests n ++ [(.alloc, n)] <+: expectedRequests (n + 1) :=
  expectedRequests_succ n ▸ List.prefix_append ..

theorem expectedRequests_prefix {m n : Nat} (h : m ≤ n) : expectedRequests m <+: expectedRequests n := by
  induction h with
  | refl => exact List.prefix_rfl
  | @step k _ ih => exact ih.trans ((List.prefix_append ..).trans (expectedRequests_alloc_prefix k))

/-! ### What a load has raised so far -/

/-- The load has raised exactly `log`, with no more than the file's frames begun; a failed one has raised a first part
of what is expected. Outside a load nothing is said. -/
def State.hasRaised (s : State) (log : List (ReqType × Nat)) : Prop :=
  match s.phase with
  | .idle | .accum => True
  | .parse => log = []
  | .frameStart => s.frameIdx.toNat ≤ s.hdr.frames.toNat ∧ log = expectedRequests s.frameIdx.toNat
  | .allocWait | .decode =>
    s.frameIdx.toNat < s.hdr.frames.toNat ∧
      log = expectedRequests s.frameIdx.toNat ++ [(.alloc, s.frameIdx.toNat)]
  | .notifyWait => s.frameIdx.toNat < s.hdr.frames.toNat ∧ s.frameIdx = 0 ∧ log = [(.alloc, 0), (.notify, 0)]
  | .appendWait => s.frameIdx.toNat < s.hdr.frames.toNat ∧ log = expectedRequests (s.frameIdx.toNat + 1)
  | .done => log = expectedRequests s.hdr.frames.toNat
  | .failed => log <+: expectedRequests s.hdr.frames.toNat

section Raised
variable {s t : State} {log : List (ReqType × Nat)}

theorem State.hasRaised_parse (hp : s.phase = .parse) : s.hasRaised log ↔ log = [] := by
  simp only [State.hasRaised, hp]

theorem State.hasRaised_frameStart (hp : s.phase = .frameStart) :
    s.hasRaised log ↔
      s.frameIdx.toNat ≤ s.hdr.frames.toNat ∧ log = expectedRequests s.frameIdx.toNat := by
  simp only [State.hasRaised, hp]

theorem State.hasRaised_granting (hp : s.phase = .allocWait ∨ s.phase = .decode) :
    s.hasRaised log ↔
      s.frameIdx.toNat < s.hdr.frames.toNat ∧
        log = expectedRequests s.frameIdx.toNat ++ [(.alloc, s.frameIdx.toNat)] := by
  rcases hp with hp | hp <;> simp only [State.hasRaised, hp]

theorem State.hasRaised_notifyWait (hp : s.phase = .notifyWait) :
    s.hasRaised log ↔
      s.frameIdx.toNat < s.hdr.frames.toNat ∧ s.frameIdx = 0 ∧ log = [(.alloc, 0), (.notify, 0)] := by
  simp only [State.hasRaised, hp]

theorem State.hasRaised_appendWait (hp : s.phase = .appendWait) :
    s.hasRaised log ↔
      s.frameIdx.toNat < s.hdr.frames.toNat ∧ log = expectedRequests (s.frameIdx.toNat + 1) := by
  simp only [State.hasRaised, hp]

theorem State.hasRaised_done (hp : s.phase = .done) :
    s.hasRaised log ↔ log = expectedRequests s.hdr.frames.toNat := by
  simp only [State.hasRaised, hp]

theorem State.hasRaised_failed (hp : s.phase = .failed) :
    s.hasRaised log ↔ log <+: expectedRequests s.hdr.frames.toNat := by
  simp only [State.hasRaised, hp]

theorem State.hasRaised_idle (hp : s.phase = .idle) : s.hasRaised log := by
  simp only [State.hasRaised, hp]

/-- What has been raised depends on PHASE, FRAME_IDX and the header latch only. -/
theorem State.hasRaised_congr (hphase : t.phase = s.phase) (hidx : t.frameIdx = s.frameIdx) (hhdr : t.hdr = s.hdr) :
    t.hasRaised log ↔ s.hasRaised log := by
  simp only [State.hasRaised, hphase, hidx, hhdr]

/-- While a load is BUSY it has raised a first part of what is expected of it. -/
theorem State.hasRaised.isPrefix (h : s.hasRaised log) (hb : s.busy = true) :
    log <+: expectedRequests s.hdr.frames.toNat := by
  have halloc : s.phase = .allocWait ∨ s.phase = .decode → log <+: expectedRequests s.hdr.frames.toNat := by
    intro hp
    obtain ⟨hlt, rfl⟩ := (State.hasRaised_granting hp).mp h
    exact (expectedRequests_alloc_prefix _).trans (expectedRequests_prefix hlt)
  cases hp : s.phase with
  | parse =>
    rw [(State.hasRaised_parse hp).mp h]
    exact List.nil_prefix
  | frameStart =>
    obtain ⟨hle, rfl⟩ := (State.hasRaised_frameStart hp).mp h
    exact expectedRequests_prefix hle
  | allocWait => exact halloc (.inl hp)
  | decode => exact halloc (.inr hp)
  | notifyWait =>
    obtain ⟨hlt, -, rfl⟩ := (State.hasRaised_notifyWait hp).mp h
    have hfirst : [(.alloc, 0), (.notify, 0)] <+: expectedRequests 1 := ⟨[(.append, 0)], rfl⟩
    exact hfirst.trans (expectedRequests_prefix (by omega))
  | appendWait =>
    obtain ⟨hlt, rfl⟩ := (State.hasRaised_appendWait hp).mp h
    exact expectedRequests_prefix hlt
  | idle | accum | done | failed => rw [State.busy, hp] at hb; cases hb

/-! ### What a step raises -/

/-- A step into a phase without a request raises none. -/
theorem requestRaised_of_none (h : t.phase.reqType = .none) : requestRaised s t = [] := if_neg fun hr => hr.2 h

theorem requestRaised_of_phase_eq (h : t.phase = s.phase) : requestRaised s t = [] := if_neg fun hr => hr.1 h

/-- R313: a request for a wait phase raises that phase's request, for frame FRAME_IDX. -/
theorem requestRaised_raiseRequest {ph : Phase} (hne : ph ≠ s.phase) (hreq : ph.reqType ≠ .none) (base : BitVec 64)
    (t : State) : requestRaised s (raiseRequest ph base t) = [(ph.reqType, t.frameIdx.toNat)] := if_pos ⟨hne, hreq⟩

/-- A change that leaves PHASE, FRAME_IDX and the header latch raises nothing. -/
theorem State.hasRaised.same (h : s.hasRaised log) (hphase : t.phase = s.phase) (hidx : t.frameIdx = s.frameIdx)
    (hhdr : t.hdr = s.hdr) : t.hasRaised (log ++ requestRaised s t) := by
  rw [requestRaised_of_phase_eq hphase, List.append_nil]
  exact (State.hasRaised_congr hphase hidx hhdr).mpr h

/-- A load error raises nothing, and keeps what has been raised as a first part. -/
theorem State.hasRaised.failed (h : s.hasRaised log) (hb : s.busy = true) (e : LoadError) (ht : t.hdr = s.hdr) :
    (raiseLoadError e t).hasRaised (log ++ requestRaised s (raiseLoadError e t)) := by
  rw [requestRaised_of_none rfl, List.append_nil, State.hasRaised_failed rfl, raiseLoadError_hdr, ht]
  exact h.isPrefix hb

/-- R316: after DECODE comes NOTIFY for frame 0 and APPEND for any other. -/
theorem State.hasRaised.decoded (h : s.hasRaised log) (hp : s.phase = .decode) (m : Memory) :
    (requestDecoded { s with dest := m }).hasRaised (log ++ requestRaised s (requestDecoded { s with dest := m })) := by
  obtain ⟨hlt, rfl⟩ := (State.hasRaised_granting (.inr hp)).mp h
  by_cases h0 : s.frameIdx = 0
  · have hnotify : requestDecoded { s with dest := m } = raiseRequest .notifyWait s.fb.base { s with dest := m } :=
      if_pos h0
    rw [hnotify, requestRaised_raiseRequest (by simp [hp]) (by decide), State.hasRaised_notifyWait rfl]
    exact ⟨hlt, h0, by rw [h0]; rfl⟩
  · have happend : requestDecoded { s with dest := m } = raiseRequest .appendWait s.fb.base { s with dest := m } :=
      if_neg h0
    have hpos : s.frameIdx.toNat ≠ 0 := fun hz => h0 (BitVec.eq_of_toNat_eq hz)
    rw [happend, requestRaised_raiseRequest (by simp [hp]) (by decide), State.hasRaised_appendWait rfl]
    exact ⟨hlt, by rw [raiseRequest_frameIdx, expectedRequests_succ, if_neg hpos]; rfl⟩

/-- R21: a store accepted while BUSY writes no header register. -/
theorem State.hasRaised.stored (h : s.hasRaised log) {r : Reg} (v : Word) (hany : regAnyPhase r = true) :
    (writeField r v s).hasRaised (log ++ requestRaised s (writeField r v s)) := by
  rcases writeField_cases r v s with heq | ⟨_, _, heq⟩ | ⟨hno, -⟩
  · rw [heq]; exact h.same rfl rfl rfl
  · rw [heq]; exact h.same rfl rfl rfl
  · rw [hany] at hno; cases hno

/-- Each change that a step can make while BUSY extends what has been raised by what it raises. -/
theorem Effect.hasRaised (he : Effect s t) (h : s.hasRaised log) (hb : s.busy = true) :
    t.hasRaised (log ++ requestRaised s t) := by
  cases he with
  | same => exact h.same rfl rfl rfl
  | cmdError e => exact h.same rfl rfl rfl
  | stored r v hr => exact h.stored v (hr.resolve_left (by simp [hb]))
  | readBack w => exact h.same rfl rfl rfl
  | memWritten a b => exact h.same rfl rfl rfl
  | wasReset => exact State.hasRaised_idle rfl
  | result n => exact h.same rfl rfl rfl
  | pixel w => exact h.same rfl rfl rfl
  | tile v => exact h.same rfl rfl rfl
  | begun hfree _ => rw [hb] at hfree; cases hfree
  | ended hp => rw [busy_of_accum hp] at hb; cases hb
  | aborted => exact State.hasRaised_idle rfl
  | pushed bs cap hp _ _ => rw [busy_of_accum hp] at hb; cases hb
  | pushFailed hp => rw [busy_of_accum hp] at hb; cases hb
  | allocRefused e _ _ => exact h.failed hb e rfl
  | allocAccepted hp _ _ _ =>
    rw [requestRaised_of_none rfl, List.append_nil, State.hasRaised_granting (.inr rfl)]
    exact (State.hasRaised_granting (.inl hp)).mp h
  | notifyAcked hp =>
    obtain ⟨hlt, h0, rfl⟩ := (State.hasRaised_notifyWait hp).mp h
    rw [requestAppend_eq, requestRaised_raiseRequest (by simp [hp]) (by decide), State.hasRaised_appendWait rfl]
    exact ⟨hlt, by rw [raiseRequest_frameIdx, h0]; rfl⟩
  | appendAcked hp =>
    obtain ⟨hlt, rfl⟩ := (State.hasRaised_appendWait hp).mp h
    rw [requestRaised_of_none rfl, List.append_nil, State.hasRaised_frameStart rfl, State.frameIdx_succ_toNat hlt]
    exact ⟨hlt, rfl⟩
  | headerShort _ => exact h.failed hb _ rfl
  | headerBad hd e hp =>
    rw [(State.hasRaised_parse hp).mp h, requestRaised_of_none rfl, State.hasRaised_failed rfl]
    exact List.nil_prefix
  | parsed hd f hp _ _ _ =>
    rw [(State.hasRaised_parse hp).mp h, requestRaised_of_none rfl, State.hasRaised_frameStart rfl]
    exact ⟨Nat.zero_le _, rfl⟩
  | finished hp hlast =>
    obtain ⟨-, rfl⟩ := (State.hasRaised_frameStart hp).mp h
    rw [requestRaised_of_none rfl, List.append_nil, State.hasRaised_done rfl, hlast]
    rfl
  | frameBad e _ => exact h.failed hb e rfl
  | allocRaised f hp hmore _ _ =>
    obtain ⟨hle, rfl⟩ := (State.hasRaised_frameStart hp).mp h
    rw [requestAlloc_eq, requestRaised_raiseRequest (by simp [hp]) (by decide), State.hasRaised_granting (.inl rfl)]
    exact ⟨Nat.lt_of_le_of_ne hle hmore, rfl⟩
  | decodeUnsupported _ _ => exact h.failed hb _ rfl
  | decodeStopped f m _ _ _ => exact h.failed hb _ rfl
  | decoded f m hp _ _ => exact h.decoded hp m

/-- A step taken while BUSY extends what has been raised by what it raises. -/
theorem State.hasRaised.step (h : s.hasRaised log) (hb : s.busy = true) (hstep : step s = .next t) :
    t.hasRaised (log ++ requestRaised s t) := by
  obtain ⟨inputs, readData, he⟩ := step_effect hstep
  exact he.hasRaised ((State.hasRaised_congr rfl rfl rfl).mpr h) hb

/-- A run through BUSY states raises its request log. -/
theorem State.hasRaised.run {n : Nat} (h : s.hasRaised log) (hrun : busyRun n s = some t) :
    t.hasRaised (log ++ requestLog n s) := by
  induction n generalizing s log with
  | zero =>
    cases hrun
    rwa [requestLog, List.append_nil]
  | succ k ih =>
    rw [busyRun] at hrun
    split at hrun
    · next hb =>
      cases hstep : Machine.step s with
      | next u =>
        rw [hstep] at hrun
        simp only [requestLog, hstep, ← List.append_assoc]
        exact ih (h.step hb hstep) hrun
      | fault e => rw [hstep] at hrun; cases hrun
      | refused r => rw [hstep] at hrun; cases hrun
    · cases hrun

end Raised

/-- Settles O54: PARSE has raised nothing, so at the run's end the request log is all that has been raised. -/
theorem requestsComeInFrameOrder : Obligations.RequestsComeInFrameOrder := by
  intro s t n hp hrun
  have hraised : t.hasRaised (requestLog n s) := ((State.hasRaised_parse hp).mpr rfl).run hrun
  exact ⟨fun hdone => (State.hasRaised_done hdone).mp hraised,
    fun hfailed => (State.hasRaised_failed hfailed).mp hraised⟩

end Sys2Proof.Machine
end

section
/-! PROOFS. The load errors: taking each of the twelve (spec/60_exceptions.md R352, R353), and how long FAILED keeps
the one that was taken (R359, R360). -/

namespace Sys2Proof.Machine

/-! ### Taking a load error -/

/-- The rows of R353: each cause with its ERRCODE.CODE and ERRCODE.INFO. -/
def loadErrorRows : List (LoadError × BitVec 4 × BitVec 8) :=
  [(.accGrowth, 1, 1), (.allocRefused, 1, 2), (.shortHeader, 2, 1), (.badSignature, 2, 2), (.zeroFrames, 2, 3),
   (.payloadUnderrun, 2, 4), (.frameRange, 2, 5), (.unsupportedFormat, 3, 0), (.destBounds, 4, 0),
   (.strideShort, 5, 1), (.sizeShort, 5, 2), (.addrWrap, 5, 3)]

theorem loadErrorRows_code_info :
    ∀ row ∈ loadErrorRows, row.2.1 = row.1.code ∧ row.2.2 = row.1.info := by decide

/-- R351: code 3 is the unsupported format's alone. -/
theorem LoadError.code_eq_three_iff (e : LoadError) : e.code = 3#4 ↔ e = .unsupportedFormat := by
  cases e <;> decide

/-- R352, R354: the state a load error leaves, with the tag of an unsupported format in ERRTAG. -/
theorem raiseLoadError_eq_failedWith (e : LoadError) (s : State) :
    raiseLoadError e s = s.failedWith e.code e.info (if e.code = 3#4 then s.hdr.format else 0#32) := by
  simp only [LoadError.code_eq_three_iff]
  rfl

/-- Settles O47: every row of the table is its cause's code and information, and ERRCODE shows both. -/
theorem loadErrorsAreTakenByTheTable : Obligations.LoadErrorsAreTakenByTheTable := by
  intro s row hrow
  obtain ⟨hcode, hinfo⟩ := loadErrorRows_code_info row hrow
  rw [hcode, hinfo]
  exact ⟨raiseLoadError_eq_failedWith row.1 s, readOffset_offset .errcode (raiseLoadError row.1 s)⟩

/-! ### Keeping it -/

/-- What FAILED keeps of a load error (R360): PHASE, the error registers, the accumulator and the frame index. -/
structure State.keepsFailure (s t : State) : Prop where
  phase : t.phase = s.phase
  errCode : t.errCode = s.errCode
  errInfo : t.errInfo = s.errInfo
  errTag : t.errTag = s.errTag
  accSize : t.accSize = s.accSize
  accCap : t.accCap = s.accCap
  accMem : t.accMem = s.accMem
  frameIdx : t.frameIdx = s.frameIdx

/-- A return from a load error (R359): a new load in ACCUM or none in IDLE, and the error registers cleared. -/
structure State.returned (t : State) : Prop where
  phase : t.phase = .accum ∨ t.phase = .idle
  errCode : t.errCode = 0
  errInfo : t.errInfo = 0
  errTag : t.errTag = 0

section Failed
variable {s t : State}

/-- A store reaches no register that a load error sets. -/
theorem State.keepsFailure_stored (r : Reg) (v : Word) (s : State) : s.keepsFailure (writeField r v s) := by
  rcases writeField_cases r v s with heq | ⟨_, _, heq⟩ | ⟨-, _, _, _, _, _, _, heq⟩ <;> rw [heq] <;>
    constructor <;> rfl

/-- In FAILED a change keeps the failure or, by LOAD_BEGIN, ABORT or reset, returns from it: the changes of a load in
progress need another phase. -/
theorem Effect.keepsFailure_or_returned (he : Effect s t) (hp : s.phase = .failed) :
    s.keepsFailure t ∨ t.returned := by
  cases he with
  | same | cmdError | readBack | memWritten | result | pixel | tile => left; constructor <;> rfl
  | stored r v _ => exact .inl (State.keepsFailure_stored r v s)
  | begun => exact .inr ⟨.inl rfl, rfl, rfl, rfl⟩
  | aborted | wasReset => exact .inr ⟨.inr rfl, rfl, rfl, rfl⟩
  | ended hq | pushed _ _ hq | pushFailed hq | allocRefused _ hq | allocAccepted hq | notifyAcked hq | appendAcked hq
  | headerShort hq | headerBad _ _ hq | parsed _ _ hq | finished hq | frameBad _ hq | allocRaised _ hq
  | decodeUnsupported hq | decodeStopped _ _ hq | decoded _ _ hq => cases hp.symm.trans hq

theorem phaseTable_failed : ∀ row ∈ phaseTable, row.1 = .failed → row.2.1 = .loadBegin := by decide

/-- R310: the ways out of FAILED. -/
theorem phaseMove_failed {c : Cause} {q : Phase} (h : phaseMove .failed c q) :
    c = .loadBegin ∨ c = .abort ∨ c = .reset := by
  rcases h with hrow | ⟨hc, -⟩
  · exact .inl (phaseTable_failed _ hrow rfl)
  · exact .inr hc

end Failed

/-- Settles O48: the step's change keeps the failure or returns from it, and a return moves PHASE, so O53 names its
cause. -/
theorem failedKeepsTheFirstLoadError : Obligations.FailedKeepsTheFirstLoadError := by
  intro s t hp hstep
  obtain ⟨inputs, readData, he⟩ := step_effect hstep
  rcases he.keepsFailure_or_returned hp with hkeep | hreturn
  · obtain ⟨hphase, hcode, hinfo, htag, hsize, hcap, hmem, hidx⟩ := hkeep
    exact .inl ⟨hphase.trans hp, hcode, hinfo, htag, hsize, hcap, hmem, hidx⟩
  · obtain ⟨hphase, hcode, hinfo, htag⟩ := hreturn
    have hne : t.phase ≠ s.phase := by
      rw [hp]
      rcases hphase with hq | hq <;> simp [hq]
    obtain ⟨c, hcause, hmove⟩ := phaseMovesOnlyByTheTable s t hstep hne
    have hc : c = .loadBegin ∨ c = .abort ∨ c = .reset := phaseMove_failed (hp ▸ hmove)
    exact .inr ⟨hphase, hcode, hinfo, htag, by simpa [hcause] using hc⟩

end Sys2Proof.Machine
end

section
/-! PROOFS. While a load is under way the configuration is frozen, and the header latch but for the PARSE step
(spec/70_reset_and_hazards.md R394, R397). -/

namespace Sys2Proof.Machine

/-- The configuration of R394: EDGE_CFG, SEQ_HANDLE, the VAC registers, BLK_IN and PIX_IN. -/
def State.config (s : State) : BitVec 2 × Word × Vac × Vector Word 4 × Word :=
  (s.edgeCfg, s.seqHandle, s.vac, s.blkIn, s.pixIn)

/-- What R394 and R397 freeze outside PARSE: the configuration and the header latch. -/
def State.frozen (s : State) : (BitVec 2 × Word × Vac × Vector Word 4 × Word) × Hdr := (s.config, s.hdr)

theorem State.config_eq_iff {s t : State} :
    t.config = s.config ↔ t.edgeCfg = s.edgeCfg ∧ t.seqHandle = s.seqHandle ∧ t.vac = s.vac ∧ t.blkIn = s.blkIn ∧
      t.pixIn = s.pixIn := by
  simp only [State.config, Prod.mk.injEq]

/-- R394, R397: what is frozen is the configuration and, under whatever condition it is asked for, the header latch. -/
theorem State.config_hdr_of_frozen {s t : State} {p : Prop} (h : t.frozen = s.frozen) :
    t.config = s.config ∧ (p → t.hdr = s.hdr) :=
  ⟨congrArg Prod.fst h, fun _ => congrArg Prod.snd h⟩

section Frozen
variable {s t : State}

/-! ### Register writes while BUSY -/

theorem respondAck_frozen (s : State) : (respondAck s).frozen = s.frozen := by
  unfold respondAck ackAlloc
  split
  · split_ifs <;> rfl
  all_goals rfl

theorem respondFail_frozen (s : State) : (respondFail s).frozen = s.frozen := by
  unfold respondFail
  split <;> rfl

/-- R150: what runs while BUSY are NOP, ABORT and the responses; the rest reports BUSY. -/
theorem exec_frozen {i : Instr} (hb : s.busy = true) (h : exec i s = .next t) : t.frozen = s.frozen := by
  cases i with
  | nop | abort => cases h; rfl
  | rspAckAlloc | rspAckNotify | rspAckAppend => cases h; exact respondAck_frozen s
  | rspFailAlloc => cases h; exact respondFail_frozen s
  | _ => cases (unlessBusy_busy hb _).symm.trans h; rfl

theorem refuseWrite_frozen {r : Reject} (hb : s.busy = true) (h : refuseWrite r s = .next t) :
    t.frozen = s.frozen := by
  cases r with
  | illegalCommand | badResponse => cases h; rfl
  | misaligned => cases h
  | _ => cases (unlessBusy_busy hb _).symm.trans h; rfl

/-- R21: a store accepted while BUSY goes to STATUS, IE or a response register. -/
theorem storeReg_frozen (hb : s.busy = true) (r : Reg) (v : Word) : (storeReg r v s).frozen = s.frozen := by
  rcases storeReg_cases r v s with ⟨-, heq⟩ | ⟨hfree | hany, heq⟩ <;> rw [heq]
  · rfl
  · rw [hb] at hfree; cases hfree
  · rcases writeField_cases r v s with heq | ⟨_, _, heq⟩ | ⟨hno, -⟩
    · rw [heq]; rfl
    · rw [heq]; rfl
    · rw [hany] at hno; cases hno

/-- R394: while BUSY no register write changes the configuration or the header latch. -/
theorem hostWrite_frozen {w : Txn} (hb : s.busy = true) (h : hostWrite w s = .next t) : t.frozen = s.frozen := by
  unfold hostWrite at h
  split at h
  · exact exec_frozen hb h
  · exact refuseWrite_frozen hb h
  · cases h; exact storeReg_frozen hb _ _
  · cases h; rfl

/-! ### The engine's steps -/

/-- R397: PARSE writes the header latch, and nothing of the configuration. -/
theorem parseStep_config (h : parseStep s = .next t) : t.config = s.config := by
  unfold parseStep at h
  split at h
  · cases h; rfl
  split at h
  · cases h
  · next bs _ =>
    cases h
    rcases validateHeader_cases { s with hdr := latchHeader bs } with ⟨e, heq⟩ | ⟨f, -, -, -, -, heq⟩ <;> rw [heq] <;>
      rfl

theorem frameStartStep_frozen (s : State) : (frameStartStep s).frozen = s.frozen := by
  unfold frameStartStep
  split
  · rfl
  split
  · rfl
  split <;> rfl

theorem requestDecoded_frozen (s : State) : (requestDecoded s).frozen = s.frozen := by
  unfold requestDecoded
  split <;> rfl

theorem decodeStep_frozen (h : decodeStep s = .next t) : t.frozen = s.frozen := by
  rcases decodeStep_next h with ⟨-, rfl⟩ | ⟨f, m, -, ⟨-, rfl⟩ | ⟨-, rfl⟩⟩
  · rfl
  · exact requestDecoded_frozen { s with dest := m }
  · rfl

/-- R394, R397: the engine changes no configuration, and the header latch in PARSE only. -/
theorem engineStep_config_hdr (h : engineStep s = .next t) :
    t.config = s.config ∧ (s.phase ≠ .parse → t.hdr = s.hdr) := by
  unfold engineStep at h
  split at h
  · next hp => exact ⟨parseStep_config h, fun hne => absurd hp hne⟩
  · cases h; exact State.config_hdr_of_frozen (frameStartStep_frozen s)
  · exact State.config_hdr_of_frozen (decodeStep_frozen h)
  all_goals cases h

end Frozen

/-- Settles O9, by the next input: a register write finds the machine BUSY, the host's other accesses reach neither,
and the engine's step is the one that can be in PARSE. -/
theorem configurationIsFrozenWhileBusy : Obligations.ConfigurationIsFrozenWhileBusy := by
  intro s t hb hrst hstep
  suffices hkeep : t.config = s.config ∧ (s.phase ≠ .parse ∨ s.cause ≠ some .engine → t.hdr = s.hdr) by
    obtain ⟨hconfig, hhdr⟩ := hkeep
    obtain ⟨hedge, hseq, hvac, hblk, hpix⟩ := State.config_eq_iff.mp hconfig
    exact ⟨hedge, hseq, hvac, hblk, hpix, hhdr⟩
  have hengine : ∀ inputs readData, s.cause = some .engine →
      engineStep { s with inputs := inputs, readData := readData } = .next t →
      t.config = s.config ∧ (s.phase ≠ .parse ∨ s.cause ≠ some .engine → t.hdr = s.hdr) := by
    intro inputs readData hcause hnext
    obtain ⟨hconfig, hhdr⟩ := engineStep_config_hdr hnext
    exact ⟨hconfig, fun hp => hhdr (hp.resolve_right (not_not_intro hcause))⟩
  unfold step at hstep
  split at hstep
  · next hin => exact hengine s.inputs s.readData (by simp only [State.cause, hin]) hstep
  · next w rest _ => exact State.config_hdr_of_frozen (hostWrite_frozen (s := { s with inputs := rest }) hb hstep)
  · unfold hostRead at hstep
    split at hstep <;> cases hstep
    exact State.config_hdr_of_frozen rfl
  · next mask value rest hin =>
    unfold pollStatus at hstep
    split at hstep
    · cases hstep; exact State.config_hdr_of_frozen rfl
    · exact hengine s.inputs (statusWord s) (by simp only [State.cause, hin]) hstep
  · next rest hin =>
    unfold engineTurn at hstep
    split at hstep
    · exact hengine rest s.readData (by simp only [State.cause, hin]) hstep
    · cases hstep; exact State.config_hdr_of_frozen rfl
  · next rest hin => exact absurd hin (hrst rest)
  all_goals cases hstep; exact State.config_hdr_of_frozen rfl

end Sys2Proof.Machine
end

section
/-! PROOFS. Reset: the value of every register after it, the bits no register defines, and the reset input at any point
of a load (spec/70_reset_and_hazards.md R390, R391). -/

namespace Sys2Proof.Machine

/-! ### The state after reset -/

/-- R391: after reset no buffer is held and no error is recorded. -/
theorem State.standing_reset : State.reset.Standing where
  dest := ⟨Memory.wf_nil, nofun⟩
  cmdErrNone := fun _ => rfl
  cmdErrSome := nofun
  frameIdxRange := Nat.zero_le _

/-- Settles O50: the state after reset is what the reset input makes of itself. -/
theorem invariantHoldsAtReset : Obligations.InvariantHoldsAtReset := State.standing_reset.inv_resetInput

/-- R391: every register reads 0 after reset, but the constants and HDR_DEPTH, which is 1 below version 7.2. -/
theorem readReg_reset (r : Reg) :
    readReg r State.reset =
      if r = .id then 0x56544644#32 else if r = .seqParams then 0x00010008#32 else if r = .hdrDepth then 1#32
      else 0#32 := by
  cases r with
  | blkIn k | blkOut k => exact Vector.getElem_replicate k.isLt
  | _ => rfl

/-! ### The bits that no register defines -/

/-- A field extended to a register's width is 0 above its own bits. -/
theorem setWidth_and_not_mask {k : Nat} (x : BitVec k) :
    x.setWidth 32 &&& ~~~((BitVec.allOnes k).setWidth 32) = 0#32 := by
  ext i hi
  simpa using BitVec.lt_of_getLsbD

/-- R24: STATUS bits 6, 7 and 12 to 31 read 0. -/
theorem statusWord_undefined (s : State) : statusWord s &&& ~~~0xF3F#32 = 0#32 := by
  have hfields : (0#20 ++ s.phase.code ++ 0#2 ++ BitVec.ofBool s.vovf ++ BitVec.ofBool s.cerr
        ++ BitVec.ofBool s.reqFlag ++ BitVec.ofBool s.errFlag ++ BitVec.ofBool s.doneFlag ++ BitVec.ofBool s.busy) &&&
      (0xFFFFF#20 ++ 0#4 ++ 3#2 ++ 0#1 ++ 0#1 ++ 0#1 ++ 0#1 ++ 0#1 ++ 0#1) = 0 := by
    simp only [BitVec.and_append, BitVec.zero_and, BitVec.and_zero]
    rfl
  exact hfields

/-- R27: ERRCODE defines CODE and INFO only. -/
theorem errcode_undefined (s : State) : readReg .errcode s &&& ~~~0xFF0F#32 = 0#32 := by
  have hfields : (0#16 ++ s.errInfo ++ 0#4 ++ s.errCode) &&& (0xFFFF#16 ++ 0#8 ++ 0xF#4 ++ 0#4) = 0 := by
    simp only [BitVec.and_append, BitVec.zero_and, BitVec.and_zero]
    rfl
  exact hfields

/-! ### The reset input -/

/-- R390: what the host reads after the reset input is what it reads after reset. -/
theorem readReg_resetInput (r : Reg) (s : State) : readReg r (resetInput s) = readReg r State.reset := by
  cases r <;> rfl

theorem step_of_inputs_rst {s : State} {rest : List Input} (h : s.inputs = .rst :: rest) :
    step s = .next (resetInput { s with inputs := rest }) := by
  simp only [step, h]

/-- Settles O49: the reset values, the undefined bits, and the reset input, which no part of the load bears on. -/
theorem resetInputResetsEveryRegister : Obligations.ResetInputResetsEveryRegister := by
  refine ⟨readReg_reset, rfl, rfl, fun s => ?_, fun s rest hin => ?_⟩
  · simp only [List.forall_mem_cons, List.not_mem_nil, IsEmpty.forall_iff, implies_true, and_true]
    refine ⟨statusWord_undefined s, setWidth_and_not_mask s.cmdErr, errcode_undefined s, ?_⟩
    repeat' apply And.intro
    all_goals exact setWidth_and_not_mask _
  · exact ⟨_, step_of_inputs_rst hin, fun r => readReg_resetInput r _, rfl, rfl, rfl⟩

end Sys2Proof.Machine
end

section
/-! PROOFS. A load that is served ends: every turn of the engine or of the host's ACK takes a BUSY load on to a phase
with less of it left (spec/70_reset_and_hazards.md R399, spec/45_frame_dispatcher.md R311 to R318). -/

namespace Sys2Proof.Machine

section Rank
variable {s t : State}

/-! ### The work left -/

theorem loadRank_of_parse (hp : s.phase = .parse) : s.loadRank = 5 * 65536 + 1 := by
  simp only [State.loadRank, hp]

theorem loadRank_of_frameStart (hp : s.phase = .frameStart) :
    s.loadRank = 5 * (s.hdr.frames.toNat - s.frameIdx.toNat) + 5 := by simp only [State.loadRank, hp]

theorem loadRank_of_allocWait (hp : s.phase = .allocWait) :
    s.loadRank = 5 * (s.hdr.frames.toNat - s.frameIdx.toNat) + 4 := by simp only [State.loadRank, hp]

theorem loadRank_of_decode (hp : s.phase = .decode) :
    s.loadRank = 5 * (s.hdr.frames.toNat - s.frameIdx.toNat) + 3 := by simp only [State.loadRank, hp]

theorem loadRank_of_notifyWait (hp : s.phase = .notifyWait) :
    s.loadRank = 5 * (s.hdr.frames.toNat - s.frameIdx.toNat) + 2 := by simp only [State.loadRank, hp]

theorem loadRank_of_appendWait (hp : s.phase = .appendWait) :
    s.loadRank = 5 * (s.hdr.frames.toNat - s.frameIdx.toNat) + 1 := by simp only [State.loadRank, hp]

/-- A BUSY load has work left. -/
theorem loadRank_pos (hb : s.busy = true) : 0 < s.loadRank := by
  unfold State.loadRank
  cases hp : s.phase with
  | idle | accum | done | failed => rw [State.busy, hp] at hb; cases hb
  | _ => exact Nat.succ_pos _

/-! ### A turn takes the load on -/

/-- The load is under way or has ended in DONE or FAILED. -/
def State.underWayOrEnded (s : State) : Prop := s.busy = true ∨ s.phase = .done ∨ s.phase = .failed

/-- `t` has less of the load left than `s`, and the load has not been abandoned. -/
structure State.AdvancesTo (s t : State) : Prop where
  rank : t.loadRank < s.loadRank
  load : t.underWayOrEnded

theorem State.advancesTo_failed (hb : s.busy = true) (e : LoadError) (u : State) :
    s.AdvancesTo (raiseLoadError e u) := ⟨loadRank_pos hb, .inr (.inr rfl)⟩

/-- R311: PARSE enters the frame loop with at most 65535 frames to come, or fails. -/
theorem State.Inv.engineStep_advances_of_parse (h : s.Inv) (hp : s.phase = .parse) :
    ∃ t, engineStep s = .next t ∧ s.AdvancesTo t := by
  have hb : s.busy = true := by rw [State.busy, hp]; rfl
  by_cases hshort : s.accSize.toNat < hdrBytes
  · exact ⟨_, engineStep_of_short hp hshort, State.advancesTo_failed hb _ s⟩
  · obtain ⟨bs, hbs⟩ := h.accRead_isSome (off := 0) (n := hdrBytes) (by omega)
    refine ⟨_, engineStep_of_header hp hbs, ?_⟩
    rcases validateHeader_cases { s with hdr := latchHeader bs } with ⟨e, heq⟩ | ⟨f, -, -, -, -, heq⟩ <;> rw [heq]
    · exact State.advancesTo_failed hb e _
    · refine ⟨?_, .inl rfl⟩
      have hframes := (latchHeader bs).frames.isLt
      rw [loadRank_of_parse hp, loadRank_of_frameStart rfl]
      simp only
      omega

/-- R312: FRAME_START ends the load, fails it or raises ALLOC. -/
theorem State.Inv.engineStep_advances_of_frameStart (h : s.Inv) (hp : s.phase = .frameStart) :
    ∃ t, engineStep s = .next t ∧ s.AdvancesTo t := by
  have hb : s.busy = true := by rw [State.busy, hp]; rfl
  refine ⟨_, engineStep_of_frameStart hp, ?_⟩
  by_cases hlast : s.frameIdx.toNat = s.hdr.frames.toNat
  · rw [frameStartStep_of_last hlast]
    exact ⟨loadRank_pos hb, .inr (.inl rfl)⟩
  · obtain ⟨-, -, f, htag, -⟩ := h.located (by rw [hp]; rfl)
    rw [frameStartStep_of_frame hlast htag]
    split
    · exact ⟨by rw [loadRank_of_frameStart hp]; exact Nat.lt_succ_self _, .inl rfl⟩
    · exact State.advancesTo_failed hb _ s

/-- R316: a decoded frame waits for its next answer. -/
theorem State.advancesTo_requestDecoded (hp : s.phase = .decode) (m : Memory) :
    s.AdvancesTo (requestDecoded { s with dest := m }) := by
  have hrank := loadRank_of_decode hp
  unfold requestDecoded
  split
  · exact ⟨by rw [hrank]; exact Nat.lt_succ_self _, .inl rfl⟩
  · exact ⟨by rw [hrank]; exact Nat.add_lt_add_left (show 1 < 3 by decide) _, .inl rfl⟩

/-- R316: from the invariant DECODE decodes its frame, or stops at the buffer's end. -/
theorem State.Inv.engineStep_advances_of_decode (h : s.Inv) (hp : s.phase = .decode) :
    ∃ t, engineStep s = .next t ∧ s.AdvancesTo t := by
  obtain ⟨-, -, f, htag, -⟩ := h.located (by rw [hp]; rfl)
  rw [engineStep_of_decode hp]
  obtain ⟨m, hd | hd, -⟩ := h.decodeFrame_inBuffer hp htag
  · exact ⟨_, decodeStep_of_done htag hd, State.advancesTo_requestDecoded hp m⟩
  · exact ⟨_, decodeStep_of_bounds htag hd, State.advancesTo_failed (by rw [State.busy, hp]; rfl) _ _⟩

/-- R314: ALLOC's ACK grants the frame its buffer, or fails the load. -/
theorem State.advancesTo_ackAlloc (hp : s.phase = .allocWait) : s.AdvancesTo (ackAlloc s) := by
  have hb : s.busy = true := by rw [State.busy, hp]; rfl
  unfold ackAlloc
  split_ifs
  · exact State.advancesTo_failed hb _ s
  · exact State.advancesTo_failed hb _ s
  · exact State.advancesTo_failed hb _ s
  · exact ⟨by rw [loadRank_of_allocWait hp]; exact Nat.lt_succ_self _, .inl rfl⟩

/-- R318: APPEND's ACK leaves one frame less to come. -/
theorem State.Inv.advancesTo_nextFrame (h : s.Inv) (hp : s.phase = .appendWait) :
    s.AdvancesTo { s with frameIdx := s.frameIdx + 1, phase := .frameStart } := by
  obtain ⟨hlt, -⟩ := h.pending (by rw [hp]; rfl)
  refine ⟨?_, .inl rfl⟩
  rw [loadRank_of_appendWait hp, loadRank_of_frameStart rfl, State.frameIdx_succ_toNat hlt]
  simp only
  omega

/-! ### Serving a load -/

theorem serveOnce_of_engine (he : s.phase.engineEnabled = true) : serveOnce s = engineStep s := if_pos he

theorem serveOnce_of_request (he : s.phase.engineEnabled = false) : serveOnce s = .next (respondAck s) :=
  (if_neg (by rw [he]; decide)).trans (hostWrite_ack s)

/-- A turn of a BUSY load: the engine's in PARSE, FRAME_START and DECODE, else the host's ACK. -/
theorem State.Inv.serveOnce_advances (h : s.Inv) (hb : s.busy = true) :
    ∃ t, serveOnce s = .next t ∧ s.AdvancesTo t := by
  cases hp : s.phase with
  | parse =>
    rw [serveOnce_of_engine (by rw [hp]; rfl)]
    exact h.engineStep_advances_of_parse hp
  | frameStart =>
    rw [serveOnce_of_engine (by rw [hp]; rfl)]
    exact h.engineStep_advances_of_frameStart hp
  | decode =>
    rw [serveOnce_of_engine (by rw [hp]; rfl)]
    exact h.engineStep_advances_of_decode hp
  | allocWait =>
    refine ⟨_, serveOnce_of_request (by rw [hp]; rfl), ?_⟩
    rw [respondAck_of_allocWait hp]
    exact State.advancesTo_ackAlloc hp
  | notifyWait =>
    refine ⟨_, serveOnce_of_request (by rw [hp]; rfl), ?_⟩
    rw [respondAck_of_notifyWait hp]
    exact ⟨by rw [loadRank_of_notifyWait hp]; exact Nat.lt_succ_self _, .inl rfl⟩
  | appendWait =>
    refine ⟨_, serveOnce_of_request (by rw [hp]; rfl), ?_⟩
    rw [respondAck_of_appendWait hp]
    exact h.advancesTo_nextFrame hp
  | idle | accum | done | failed => rw [State.busy, hp] at hb; cases hb

/-- A turn keeps the invariant: it is the engine's step or an answer. -/
theorem State.Inv.of_serveOnce (h : s.Inv) (hturn : serveOnce s = .next t) : t.Inv := by
  cases he : s.phase.engineEnabled with
  | true => exact (engineStep_effect ((serveOnce_of_engine he).symm.trans hturn)).keeps_inv h
  | false =>
    cases (serveOnce_of_request he).symm.trans hturn
    exact (respondAck_effect s).keeps_inv h

theorem serve_of_not_busy (hb : s.busy = false) (n : Nat) : serve n s = s := by
  cases n with
  | zero => rfl
  | succ k => rw [serve, if_neg (by rw [hb]; decide)]

theorem serve_succ (hb : s.busy = true) (hturn : serveOnce s = .next t) (n : Nat) : serve (n + 1) s = serve n t := by
  rw [serve, if_pos hb, hturn]

/-- R399: as many turns as there is work left end the load. -/
theorem State.Inv.serve_ends (h : s.Inv) {n : Nat} (hload : s.underWayOrEnded) (hn : s.loadRank ≤ n) :
    (serve n s).phase = .done ∨ (serve n s).phase = .failed := by
  induction n generalizing s with
  | zero => exact hload.resolve_left fun hb => absurd (loadRank_pos hb) (Nat.not_lt_of_le hn)
  | succ k ih =>
    cases hb : s.busy with
    | true =>
      obtain ⟨t, hturn, hrank, hload'⟩ := h.serveOnce_advances hb
      rw [serve_succ hb hturn]
      exact ih (h.of_serveOnce hturn) hload' (by omega)
    | false =>
      rw [serve_of_not_busy hb]
      exact hload.resolve_left (by rw [hb]; decide)

end Rank

/-- Settles O55: the work left is itself a number of turns that is enough. -/
theorem servedLoadEnds : Obligations.ServedLoadEnds :=
  fun s h hb => ⟨s.loadRank, Nat.le_refl _, h.serve_ends (.inl hb) (Nat.le_refl _)⟩

end Sys2Proof.Machine
end

section
/-! PROOFS. A host write outside the granted buffer and the DECODE step commute: over the changed memory DECODE makes
the same writes, none of them at the host's address (spec/70_reset_and_hazards.md R395, spec/20_memory.md R74). -/

namespace Sys2Proof.Machine

/-- The same writes over a memory in which one more byte has been written, none of them at that byte's address, leave
that byte written and all others as without it. -/
theorem SameWrites.eq_write {m0 m m' : Memory} {a : Nat} {b : Byte} (h : SameWrites m0 (Memory.write a b m0) m m')
    (hm : m.wf) (hm' : m'.wf) (ha : m'.read a = (Memory.write a b m0).read a) : m' = Memory.write a b m := by
  refine Memory.ext_of_wf hm' (Memory.wf_write hm a b) fun x => ?_
  by_cases hx : x = a
  · rw [hx, ha, Memory.read_write_same, Memory.read_write_same]
  · rw [Memory.read_write_other m b hx]
    rcases h x with ⟨c, hc, hc'⟩ | ⟨hc, hc'⟩
    · rw [hc, hc']
    · rw [hc, hc', Memory.read_write_other m0 b hx]

/-- Settles O59: both orders make the same writes, and from the invariant DECODE makes none outside the buffer. -/
theorem hostWritesOutsideTheBufferCommute : Obligations.HostWritesOutsideTheBufferCommute := by
  intro s t a b h hp hout hstep
  have hwritten : (hostMemWrite a b s).Inv := (Effect.memWritten a b).keeps_inv h
  obtain ⟨m', hstep', hsame⟩ := engineIgnoresDestinationContents s t (s.dest.write a.toNat b) hstep
  have hnext : engineStep (hostMemWrite a b s) = .next { t with dest := m' } := hstep'
  have hkept : m'.read a.toNat = (s.dest.write a.toNat b).read a.toNat := by
    rcases hwritten.engineStep_dest hnext with hdest | ⟨-, hkeep⟩
    · exact congrArg (Memory.read · a.toNat) hdest
    · exact hkeep a.toNat hout
  have ht : t.Inv := (engineStep_effect hstep).keeps_inv h
  have ht' : { t with dest := m' }.Inv := (engineStep_effect hnext).keeps_inv hwritten
  have hm' : m' = t.dest.write a.toNat b := SameWrites.eq_write hsame ht.destCanonical ht'.destCanonical hkept
  rw [hnext, hm']
  rfl

end Sys2Proof.Machine
end
